-- ==== Sys2Proof/Word.lean ====
section
/-! DEFINITION. The plainest value types of the block (spec 00_scope.md R10, R12; 20_memory.md R50;
30_encoding.md R71): a byte, a command header, a `LEN` field. A field element is held, compared and
transported as its canonical representative, a natural number (R10), so it has no word type. -/

namespace Sys2Proof

/-- One byte of `BUF`, `DIN` or `DOUT` (20_memory.md R50: "A byte is 8 bits"). -/
abbrev Byte := BitVec 8

/-- A 32-bit command header `H` (30_encoding.md R70, R71). -/
abbrev Header := BitVec 32

/-- The 16-bit field `LEN` of a header (30_encoding.md R71). -/
abbrev Len := BitVec 16

end Sys2Proof
end

