-- ==== Sys2Proof/Config.lean ====
section
/-! DEFINITION. The configuration of a block: the type of a parameter set (spec 00_scope.md R7, R8;
20_memory.md R60) and the constants that the spec leaves OPEN. The constants have no body, so no
proof can learn a value of theirs. -/

namespace Sys2Proof

/-- `SCHEDULE`: which round schedule a parameter set is for (40_permutation.md R115; 00_scope.md R8). -/
inductive Schedule where
  | cheap
  | classic
deriving DecidableEq, Repr, Inhabited

/-- A parameter set: the contents of the parameter store (20_memory.md R60, with the `Parameters`
record of 00_scope.md R7 and the further parameters of R8). Every table is a list in the index order
of R60; a list of the wrong length is a malformed table, which `paramsWF` finds. `FIELD_BITS`,
`FE_BYTES`, `SCALAR_BYTES` and `MAXB_DEFAULT` are functions of these (Machine/Params.lean). -/
structure Params where
  /-- `P`, the prime modulus of the base field. -/
  P : Nat
  /-- `SCALAR_BITS`, the bit width of the curve's scalar field. -/
  scalarBits : Nat
  /-- `RATE`, `CAPACITY` and `WIDTH`, three scalars of the store (R60); R9 requires that the third is
  the sum of the other two. -/
  rate : Nat
  capacity : Nat
  width : Nat
  /-- `RF` and `RP`, the counts of full and of partial rounds. -/
  rf : Nat
  rp : Nat
  /-- `D`, the S-box degree. -/
  d : Nat
  schedule : Schedule
  /-- `RC[r][i]`. -/
  rc : List (List Nat)
  /-- `DIAG[i]` (cheap schedule). -/
  diag : List Nat
  /-- `MDS[i][j]` (classic schedule). -/
  mds : List (List Nat)
  /-- `M4[i][j]`. -/
  m4 : List (List Nat)
  /-- `CLASS_CONST[c][l]`. -/
  classConst : List (List Nat)
  /-- `TAG[k]` for the kind codes 1 to 13, in that order. -/
  tag : List Byte
  /-- `SQZ_ABS_PERMUTE`. -/
  sqzAbsPermute : Bool
  /-- `BUF_CAP`; `none` is unbounded. A bound below the 65794 of 20_memory.md R65 is admitted and counts as
  it stands (log entry 16). -/
  bufCap : Option Nat
  /-- The values of `DOMAIN_DERIVE` that are written out: for a listed context, its values on the
  lanes 0, 1, ... as far as its list goes; every other value, of a lane past the list too, is
  `Config.domainDerive` (log entry 3). -/
  domainValues : List (List Byte × List Nat)
deriving DecidableEq, Repr, Inhabited

/-- The parameter set in the store of the block when it leaves hardware reset. OPEN in the spec
(92_eei_decisions.md D5, D7, D9, D18, D21, D22, D26, D36, D47): no value, log entry 1. -/
opaque Config.params : Params

/-- `DOMAIN_DERIVE(ctx, l)` for the modulus `P` (00_scope.md R8, 42_domain_separation.md R156). OPEN in
the spec (D22): no value, log entry 3. Its reduction modulo `P` is `domainDerive` of
Machine/Params.lean. -/
opaque Config.domainDerive (P : Nat) (ctx : List Byte) (l : Nat) : Nat

/-- The count byte of length-prefix padding for a remainder of `r > 255` bytes, a value that
44_packing_buffer.md R203 does not state (log entry 9): no value. -/
opaque Config.wideCountByte (r : Nat) : Byte

end Sys2Proof
end

