-- ==== Sys2Proof/Machine/Field.lean ====
section
/-! DEFINITION. Arithmetic of the field `F` on canonical representatives (spec 00_scope.md R10). -/

namespace Sys2Proof.Machine

/-- `a +F b`. -/
def fadd (P a b : Nat) : Nat := (a + b) % P

/-- `a *F b`. -/
def fmul (P a b : Nat) : Nat := (a * b) % P

/-- `a ^F n`: `a` multiplied by itself `n` times, `a ^F 0 = 1`. -/
def fpow (P a : Nat) : Nat → Nat
  | 0 => 1 % P
  | n + 1 => fmul P (fpow P a n) a

/-- `x[0] +F x[1] +F ...`, the sum of a list in `F`. -/
def fsum (P : Nat) : List Nat → Nat
  | [] => 0
  | x :: xs => fadd P x (fsum P xs)

end Sys2Proof.Machine
end

