-- ==== Sys2Proof/Syntax.lean ====
section
/-! DEFINITION. The commands of the block as data: one constructor of `Instr` for each row of
spec/opcode_table.json (30_encoding.md R76).

A command whose `OPC` and `ARG` are legal is one of these WHATEVER its `LEN`: a `LEN` that is not as
required is an operand error the command itself raises (R81, 60_exceptions.md R269). So a command
without payload carries its `LEN`; one with a payload carries the payload, and its `LEN` is the
number of field elements or of bytes in it (R72). A field element on the port is any number that
fits `FE_BYTES` bytes: the command checks that it is canonical (R73). -/

namespace Sys2Proof

/-- `CFG.PK`, the packing mode (10_state.md R29). -/
inductive PackMode where
  | byteEfficient
  | circuitFriendly
deriving DecidableEq, Repr, Inhabited

/-- `CFG.PAD`, the padding policy (10_state.md R29). -/
inductive PadPolicy where
  | zero
  | lengthPrefix
deriving DecidableEq, Repr, Inhabited

/-- The classes of absorbed elements (30_encoding.md R77). -/
inductive ClassCode where
  | base
  | scalar
  | pointFinite
  | pointInf
  | primitive
deriving DecidableEq, Repr, Inhabited

/-- The kinds of primitive values (30_encoding.md R78; 44_packing_buffer.md R186). -/
inductive Kind where
  | bool
  | u8 | u16 | u32 | u64 | u128
  | i8 | i16 | i32 | i64 | i128
  | str
  | bytes
deriving DecidableEq, Repr, Inhabited

/-- The commands (30_encoding.md R76). -/
inductive Instr where
  /-- `STATUS` (45_hasher.md R241). -/
  | status (len : Len)
  /-- `NEW` (45_hasher.md R231): the three legal `ARG` bits of R79, and `LEN`. -/
  | new (pk : PackMode) (pad : PadPolicy) (ovr : Bool) (len : Len)
  /-- `RESET` (45_hasher.md R239). -/
  | reset (len : Len)
  /-- `DIGEST` (45_hasher.md R236). -/
  | digest (len : Len)
  /-- `FINALIZE` (45_hasher.md R237). -/
  | finalize (len : Len)
  /-- `COUNT` (45_hasher.md R240). -/
  | count (len : Len)
  /-- `PERMUTE` (40_permutation.md R118). -/
  | permute (w : List Nat)
  /-- `COMPRESS` (40_permutation.md R119). -/
  | compress (w : List Nat)
  /-- `SP_ABSORB` (41_sponge.md R137). -/
  | spAbsorb (e : List Nat)
  /-- `SP_SQUEEZE` (41_sponge.md R138). -/
  | spSqueeze (len : Len)
  /-- `DS_ABSORB` (42_domain_separation.md R159). -/
  | dsAbsorb (c : ClassCode) (e : List Nat)
  /-- `ABSORB_DOMAIN` (42_domain_separation.md R160). -/
  | absorbDomain (ctx : List Byte)
  /-- `UPD_BASE` (43_field_adapter.md R171). -/
  | updBase (e : List Nat)
  /-- `UPD_SCALAR` (43_field_adapter.md R173). -/
  | updScalar (b : List Byte)
  /-- `UPD_POINT` (43_field_adapter.md R174). -/
  | updPoint (e : List Nat)
  /-- `UPD_POINT_INF` (43_field_adapter.md R175). -/
  | updPointInf (len : Len)
  /-- `PUSH_TAG` (44_packing_buffer.md R189). -/
  | pushTag (k : Kind) (len : Len)
  /-- `PUSH_BYTES` (44_packing_buffer.md R190). -/
  | pushBytes (b : List Byte)
  /-- `PUSH_VARINT` (44_packing_buffer.md R191). -/
  | pushVarint (b : List Byte)
  /-- `PB_EXTRACT` (44_packing_buffer.md R209). -/
  | pbExtract (len : Len)
  /-- `PB_FLUSH` (44_packing_buffer.md R210). -/
  | pbFlush (len : Len)
  /-- `UPD_BOOL` (44_packing_buffer.md R211). -/
  | updBool (b : List Byte)
  /-- `UPD_U8` (44_packing_buffer.md R212). -/
  | updU8 (b : List Byte)
  /-- `UPD_U16` (44_packing_buffer.md R213). -/
  | updU16 (b : List Byte)
  /-- `UPD_U32` (44_packing_buffer.md R214). -/
  | updU32 (b : List Byte)
  /-- `UPD_U64` (44_packing_buffer.md R215). -/
  | updU64 (b : List Byte)
  /-- `UPD_U128` (44_packing_buffer.md R216). -/
  | updU128 (b : List Byte)
  /-- `UPD_I8` (44_packing_buffer.md R217). -/
  | updI8 (b : List Byte)
  /-- `UPD_I16` (44_packing_buffer.md R218). -/
  | updI16 (b : List Byte)
  /-- `UPD_I32` (44_packing_buffer.md R219). -/
  | updI32 (b : List Byte)
  /-- `UPD_I64` (44_packing_buffer.md R220). -/
  | updI64 (b : List Byte)
  /-- `UPD_I128` (44_packing_buffer.md R221). -/
  | updI128 (b : List Byte)
  /-- `UPD_STR` (44_packing_buffer.md R222). -/
  | updStr (b : List Byte)
  /-- `UPD_BYTES` (44_packing_buffer.md R223). -/
  | updBytes (b : List Byte)
deriving DecidableEq, Repr

end Sys2Proof
end

