-- ==== Sys2Proof/Machine/Params.lean ====
section
/-! DEFINITION. What the rules read from a parameter set: the derived sizes (spec 00_scope.md R8, R11),
the table reads (20_memory.md R60) and the well-formedness check `ParamsWF` (00_scope.md R9). -/

namespace Sys2Proof.Machine

/-- `FIELD_BITS`: the least `n` with `P < 2^n` (00_scope.md R8). -/
def fieldBits (C : Params) : Nat := if C.P = 0 then 0 else Nat.log2 C.P + 1

/-- `FE_BYTES = ceil(FIELD_BITS / 8)` (00_scope.md R8). -/
def feBytes (C : Params) : Nat := (fieldBits C + 7) / 8

/-- `SCALAR_BYTES = ceil(SCALAR_BITS / 8)` (00_scope.md R8). -/
def scalarBytes (C : Params) : Nat := (C.scalarBits + 7) / 8

/-- `MAXB_DEFAULT = max(1, floor((FIELD_BITS - 8) / 8))` (00_scope.md R11). For `FIELD_BITS < 8` the
difference is negative and the maximum is 1, as with the truncated difference here. -/
def maxbDefault (C : Params) : Nat := max 1 ((fieldBits C - 8) / 8)

/-- The unsupported combination of curves (43_field_adapter.md R172). -/
def scalarTooWide (C : Params) : Bool := fieldBits C < C.scalarBits

/-- Entry `i`, then `j`, of a table of the parameter store. -/
def tableAt (t : List (List Nat)) (i j : Nat) : Nat := (t.getD i []).getD j 0

/-- The row of `CLASS_CONST` of a class (30_encoding.md R77). -/
def classRow : ClassCode → Nat
  | .base => 0
  | .scalar => 1
  | .pointFinite => 2
  | .pointInf => 3
  | .primitive => 4

/-- `CLASS_CONST[c][l]` (42_domain_separation.md R151). -/
def classConstAt (C : Params) (c : ClassCode) (l : Nat) : Nat := tableAt C.classConst (classRow c) l

/-- The index of a kind's tag in the list of the store: the kind code of 30_encoding.md R78 less 1. -/
def kindIndex : Kind → Nat
  | .bool => 0
  | .u8 => 1
  | .u16 => 2
  | .u32 => 3
  | .u64 => 4
  | .u128 => 5
  | .i8 => 6
  | .i16 => 7
  | .i32 => 8
  | .i64 => 9
  | .i128 => 10
  | .str => 11
  | .bytes => 12

/-- `TAG[k]` (44_packing_buffer.md R187). -/
def tagAt (C : Params) (k : Kind) : Byte := C.tag.getD (kindIndex k) 0

/-- The default `TAG` table, `TAG[k] = k` (44_packing_buffer.md R187). -/
def tagDefault : List Byte := [1, 2, 3, 4, 5, 6, 7, 8, 9, 10, 11, 12, 13]

/-- The value of `DOMAIN_DERIVE(ctx, l)` that the set writes out, if it does: entry `l` of the list of the
context, and none for a context that is not listed or a lane past the end of its list. -/
def writtenDomainValue (C : Params) (ctx : List Byte) (l : Nat) : Option Nat :=
  (C.domainValues.lookup ctx).bind (fun v => v[l]?)

/-- `DOMAIN_DERIVE(ctx, l)`, a canonical field element that depends on `(ctx, l)` alone
(42_domain_separation.md R156): the value written out for the context and the lane, else the constant
without a value (log entry 3: DESIGN CHOICE). -/
def domainDerive (C : Params) (ctx : List Byte) (l : Nat) : Nat :=
  (writtenDomainValue C ctx l).getD (Config.domainDerive C.P ctx l) % C.P

/-- The push of `n` bytes onto a buffer of `len` bytes would exceed `BUF_CAP` (20_memory.md R52), whatever
the bound: one below 65794 too (log entry 16: DESIGN CHOICE). -/
def exceedsCap (C : Params) (len n : Nat) : Bool :=
  match C.bufCap with
  | none => false
  | some cap => cap < len + n

/-- Every entry of a table is a canonical field element (00_scope.md R9 (e)). -/
def tableCanonical (P : Nat) (t : List (List Nat)) : Bool := t.all (fun row => row.all (· < P))

/-- A table has `rows` rows of `cols` entries. -/
def tableShape (rows cols : Nat) (t : List (List Nat)) : Bool :=
  t.length == rows && t.all (fun row => row.length == cols)

/-- The widths for which the cheap schedule has an external mix (00_scope.md R9 (d)). -/
def cheapWidth (w : Nat) : Bool := w == 2 || w == 3 || w == 4 || (w % 4 == 0 && 8 ≤ w)

/-- `ParamsWF` (00_scope.md R9), conjunct by conjunct: the four conditions of the source, then (a) to
(g), read as log entry 11 says. It tests neither the primality of `P` (log entry 12) nor the invertibility
of a matrix, nor the size of `BUF_CAP` (log entry 16). -/
def paramsWF (C : Params) : Bool :=
  tableShape (C.rf + C.rp) C.width C.rc
  && (match C.schedule with
      | .cheap => C.diag.length == C.width
      | .classic => tableShape C.width C.width C.mds)
  && C.width == C.rate + C.capacity
  && 1 ≤ C.rate
  && C.rf % 2 == 0
  && (C.d == 3 || C.d == 5 || C.d == 7)
  && (match C.schedule with
      | .cheap => cheapWidth C.width && (C.width % 4 != 0 || tableShape 4 4 C.m4)
      | .classic => true)
  && tableCanonical C.P C.rc && C.diag.all (· < C.P) && tableCanonical C.P C.mds
  && tableCanonical C.P C.m4 && tableCanonical C.P C.classConst
  && tableShape 5 C.rate C.classConst
  && C.tag.length == 13 && decide C.tag.Nodup

end Sys2Proof.Machine
end

