-- ==== Sys2Proof/WellFormed.lean ====
section
/-! DEFINITION. Which terms of `Instr` an encoding can carry: `LEN` is a 16-bit count (30_encoding.md
R71) and a field element travels in `FE_BYTES` bytes (R73). This is NOT the check of the operands: a
well-formed command may still raise `E_OPERAND` (60_exceptions.md R269). -/

namespace Sys2Proof

/-- A count that `LEN` can hold: `0 .. 65535` (30_encoding.md R71). -/
def lenFits (n : Nat) : Bool := n < 65536

/-- A payload of field elements that `LEN` can count and `fe` bytes each can carry (R72, R73). -/
def elemsFit (fe : Nat) (e : List Nat) : Bool := lenFits e.length && e.all (· < 256 ^ fe)

/-- A payload of raw bytes that `LEN` can count (R72). -/
def bytesFit (b : List Byte) : Bool := lenFits b.length

/-- A command that the encoding of 30_encoding.md can carry, when a field element takes `fe` bytes. -/
def Instr.wf (fe : Nat) : Instr → Bool
  | .status _ => true
  | .new _ _ _ _ => true
  | .reset _ => true
  | .digest _ => true
  | .finalize _ => true
  | .count _ => true
  | .permute w => elemsFit fe w
  | .compress w => elemsFit fe w
  | .spAbsorb e => elemsFit fe e
  | .spSqueeze _ => true
  | .dsAbsorb _ e => elemsFit fe e
  | .absorbDomain ctx => bytesFit ctx
  | .updBase e => elemsFit fe e
  | .updScalar b => bytesFit b
  | .updPoint e => elemsFit fe e
  | .updPointInf _ => true
  | .pushTag _ _ => true
  | .pushBytes b => bytesFit b
  | .pushVarint b => bytesFit b
  | .pbExtract _ => true
  | .pbFlush _ => true
  | .updBool b => bytesFit b
  | .updU8 b => bytesFit b
  | .updU16 b => bytesFit b
  | .updU32 b => bytesFit b
  | .updU64 b => bytesFit b
  | .updU128 b => bytesFit b
  | .updI8 b => bytesFit b
  | .updI16 b => bytesFit b
  | .updI32 b => bytesFit b
  | .updI64 b => bytesFit b
  | .updI128 b => bytesFit b
  | .updStr b => bytesFit b
  | .updBytes b => bytesFit b

end Sys2Proof
end

