-- ==== Sys2Proof/Decode.lean ====
section
/-! DEFINITION. The command encoding (spec 30_encoding.md): the byte order of the ports, the header, the
opcode map, the payload forms, the decoder (total on any bytes) and, after it, the encoder. -/

namespace Sys2Proof

/-! ### Byte order (00_scope.md R14) -/

/-- `LE(b)`, the little-endian reading of a byte string (00_scope.md R14). -/
def leNat : List Byte → Nat
  | [] => 0
  | b :: bs => b.toNat + 256 * leNat bs

/-- `bytes_le(v, n)`, the byte string of length `n` whose `LE` is `v` (00_scope.md R14). -/
def bytesLE (v : Nat) : Nat → List Byte
  | 0 => []
  | n + 1 => BitVec.ofNat 8 v :: bytesLE (v / 256) n

/-- Field elements on a port: `fe` bytes each, element 0 first (30_encoding.md R72, R73). -/
def elemBytes (fe : Nat) : List Nat → List Byte
  | [] => []
  | v :: vs => bytesLE v fe ++ elemBytes fe vs

/-- The `n` field elements that a payload carries (30_encoding.md R72, R73), canonical or not. -/
def splitElems (fe : Nat) : Nat → List Byte → List Nat
  | 0, _ => []
  | n + 1, b => leNat (b.take fe) :: splitElems fe n (b.drop fe)

/-! ### The header (R71) -/

/-- `OPC = H[7:0]` (R71). -/
def headerOpc (h : Header) : Byte := h.extractLsb' 0 8

/-- `ARG = H[15:8]` (R71). -/
def headerArg (h : Header) : Byte := h.extractLsb' 8 8

/-- `LEN = H[31:16]` (R71). -/
def headerLen (h : Header) : Len := h.extractLsb' 16 16

/-- The header of three fields: `OPC + 256 * ARG + 65536 * LEN` (R85). -/
def mkHeader (opc arg : Byte) (len : Len) : Header :=
  BitVec.ofNat 32 (opc.toNat + 256 * arg.toNat + 65536 * len.toNat)

/-! ### The opcode map (R76) -/

/-- The 21 defined values of `OPC` (R76, R81), named. -/
inductive Op where
  | status | new | reset | digest | finalize | count
  | permute | compress
  | spAbsorb | spSqueeze
  | dsAbsorb | absorbDomain
  | updBase | updScalar | updPoint
  | pushTag | pushBytes | pushVarint | pbExtract | pbFlush
  | updPrimitive
deriving DecidableEq, Repr

/-- The value of `OPC` (R76). -/
def opCode : Op → Byte
  | .status => 0x00
  | .new => 0x01
  | .reset => 0x02
  | .digest => 0x03
  | .finalize => 0x04
  | .count => 0x05
  | .permute => 0x10
  | .compress => 0x11
  | .spAbsorb => 0x20
  | .spSqueeze => 0x21
  | .dsAbsorb => 0x30
  | .absorbDomain => 0x31
  | .updBase => 0x40
  | .updScalar => 0x41
  | .updPoint => 0x42
  | .pushTag => 0x50
  | .pushBytes => 0x51
  | .pushVarint => 0x52
  | .pbExtract => 0x53
  | .pbFlush => 0x54
  | .updPrimitive => 0x60

/-- All defined opcodes. -/
def allOps : List Op :=
  [.status, .new, .reset, .digest, .finalize, .count, .permute, .compress, .spAbsorb, .spSqueeze,
    .dsAbsorb, .absorbDomain, .updBase, .updScalar, .updPoint, .pushTag, .pushBytes, .pushVarint,
    .pbExtract, .pbFlush, .updPrimitive]

/-- The opcode a byte stands for, if it is defined (R81 (a)). -/
def opOf (b : Byte) : Option Op := allOps.find? (fun o => opCode o == b)

/-- The class code in `ARG` of `DS_ABSORB` (R77). -/
def classCode : ClassCode → Byte
  | .base => 0
  | .scalar => 1
  | .pointFinite => 2
  | .pointInf => 3
  | .primitive => 4

/-- All classes (R77). -/
def allClasses : List ClassCode := [.base, .scalar, .pointFinite, .pointInf, .primitive]

/-- The class of a class code, if it is one (R77). -/
def classOf (b : Byte) : Option ClassCode := allClasses.find? (fun c => classCode c == b)

/-- The kind code in `ARG` of `PUSH_TAG` and of `OPC = 0x60` (R78). -/
def kindCode : Kind → Byte
  | .bool => 0x01
  | .u8 => 0x02
  | .u16 => 0x03
  | .u32 => 0x04
  | .u64 => 0x05
  | .u128 => 0x06
  | .i8 => 0x07
  | .i16 => 0x08
  | .i32 => 0x09
  | .i64 => 0x0A
  | .i128 => 0x0B
  | .str => 0x0C
  | .bytes => 0x0D

/-- All kinds (R78). -/
def allKinds : List Kind :=
  [.bool, .u8, .u16, .u32, .u64, .u128, .i8, .i16, .i32, .i64, .i128, .str, .bytes]

/-- The kind of a kind code, if it is one (R78). -/
def kindOf (b : Byte) : Option Kind := allKinds.find? (fun k => kindCode k == b)

/-- The `ARG` of `NEW` (R79). -/
def newArg (pk : PackMode) (pad : PadPolicy) (ovr : Bool) : Byte :=
  (match pk with | .byteEfficient => 0 | .circuitFriendly => 1)
    ||| (match pad with | .zero => 0 | .lengthPrefix => 2)
    ||| (if ovr then 4 else 0)

/-! ### Payload forms (R72) -/

/-- The three payload forms (R72). -/
inductive Form where
  | none
  | elems
  | bytes
deriving DecidableEq, Repr

/-- The payload form of an opcode; `ARG` bit 0 chooses for `OPC = 0x42` only (R72). -/
def payloadForm (o : Op) (arg : Byte) : Form :=
  match o with
  | .status => .none
  | .new => .none
  | .reset => .none
  | .digest => .none
  | .finalize => .none
  | .count => .none
  | .permute => .elems
  | .compress => .elems
  | .spAbsorb => .elems
  | .spSqueeze => .none
  | .dsAbsorb => .elems
  | .absorbDomain => .bytes
  | .updBase => .elems
  | .updScalar => .bytes
  | .updPoint => if arg.getLsbD 0 then .none else .elems
  | .pushTag => .none
  | .pushBytes => .bytes
  | .pushVarint => .bytes
  | .pbExtract => .none
  | .pbFlush => .none
  | .updPrimitive => .bytes

/-- The number of payload bytes that a form and `LEN` announce (R72). -/
def formBytes (fe : Nat) : Form → Len → Nat
  | .none, _ => 0
  | .elems, len => len.toNat * fe
  | .bytes, len => len.toNat

/-- The number of payload bytes that a header announces; of an undefined `OPC` the block consumes none
(60_exceptions.md R268). -/
def payloadBytes (fe : Nat) (h : Header) : Nat :=
  match opOf (headerOpc h) with
  | none => 0
  | some o => formBytes fe (payloadForm o (headerArg h)) (headerLen h)

/-! ### The decoder -/

/-- Why bytes are not a command. The first two make `E_ILLEGAL` (R81); the third means that the host
has not sent a whole header yet. -/
inductive DecodeError where
  /-- (R81 (a)) `OPC` is not one of the 21 defined values. -/
  | undefinedOpc (opc : Byte)
  /-- (R81 (b)) `ARG` is not a value that R76 allows for the `OPC`. -/
  | illegalArg (opc arg : Byte)
  /-- Fewer than the four bytes of a header. -/
  | noHeader
deriving DecidableEq, Repr

/-- `ARG` must be zero (R76), else it is illegal. -/
def zeroArg (o : Op) (arg : Byte) (i : Instr) : Except DecodeError Instr :=
  if arg = 0 then .ok i else .error (.illegalArg (opCode o) arg)

/-- The update command of a kind (R76, `OPC = 0x60`). -/
def updOfKind : Kind → List Byte → Instr
  | .bool, b => .updBool b
  | .u8, b => .updU8 b
  | .u16, b => .updU16 b
  | .u32, b => .updU32 b
  | .u64, b => .updU64 b
  | .u128, b => .updU128 b
  | .i8, b => .updI8 b
  | .i16, b => .updI16 b
  | .i32, b => .updI32 b
  | .i64, b => .updI64 b
  | .i128, b => .updI128 b
  | .str, b => .updStr b
  | .bytes, b => .updBytes b

/-- The command of a defined opcode, an `ARG`, a `LEN` and the payload bytes (R76 to R81). -/
def decodeOp (fe : Nat) (o : Op) (arg : Byte) (len : Len) (pay : List Byte) :
    Except DecodeError Instr :=
  match o with
  | .status => zeroArg o arg (.status len)
  | .new =>
    if arg &&& 0xF8 = 0 then
      .ok (.new (if arg.getLsbD 0 then .circuitFriendly else .byteEfficient)
        (if arg.getLsbD 1 then .lengthPrefix else .zero) (arg.getLsbD 2) len)
    else .error (.illegalArg (opCode o) arg)
  | .reset => zeroArg o arg (.reset len)
  | .digest => zeroArg o arg (.digest len)
  | .finalize => zeroArg o arg (.finalize len)
  | .count => zeroArg o arg (.count len)
  | .permute => zeroArg o arg (.permute (splitElems fe len.toNat pay))
  | .compress => zeroArg o arg (.compress (splitElems fe len.toNat pay))
  | .spAbsorb => zeroArg o arg (.spAbsorb (splitElems fe len.toNat pay))
  | .spSqueeze => zeroArg o arg (.spSqueeze len)
  | .dsAbsorb =>
    match classOf arg with
    | some c => .ok (.dsAbsorb c (splitElems fe len.toNat pay))
    | none => .error (.illegalArg (opCode o) arg)
  | .absorbDomain => zeroArg o arg (.absorbDomain pay)
  | .updBase => zeroArg o arg (.updBase (splitElems fe len.toNat pay))
  | .updScalar => zeroArg o arg (.updScalar pay)
  | .updPoint =>
    if arg = 0 then .ok (.updPoint (splitElems fe len.toNat pay))
    else if arg = 1 then .ok (.updPointInf len)
    else .error (.illegalArg (opCode o) arg)
  | .pushTag =>
    match kindOf arg with
    | some k => .ok (.pushTag k len)
    | none => .error (.illegalArg (opCode o) arg)
  | .pushBytes => zeroArg o arg (.pushBytes pay)
  | .pushVarint => zeroArg o arg (.pushVarint pay)
  | .pbExtract => zeroArg o arg (.pbExtract len)
  | .pbFlush => zeroArg o arg (.pbFlush len)
  | .updPrimitive =>
    match kindOf arg with
    | some k => .ok (updOfKind k pay)
    | none => .error (.illegalArg (opCode o) arg)

/-- The command of a header and its payload bytes. -/
def decodeHeader (fe : Nat) (h : Header) (pay : List Byte) : Except DecodeError Instr :=
  match opOf (headerOpc h) with
  | none => .error (.undefinedOpc (headerOpc h))
  | some o => decodeOp fe o (headerArg h) (headerLen h) pay

/-- What the decoder reads at the front of a byte stream. -/
structure Decoded where
  /-- The command, or why there is none. -/
  result : Except DecodeError Instr
  /-- The bytes after the header and the payload it announces (R72). -/
  rest : List Byte
  /-- The whole header and the whole payload are there. -/
  complete : Bool

/-- The decoder, total on any bytes: the header, least significant byte first (R88), then the payload
it announces (R72). `fe` is `FE_BYTES`. -/
def decode (fe : Nat) (bytes : List Byte) : Decoded :=
  match bytes with
  | b0 :: b1 :: b2 :: b3 :: tail =>
    let h : Header := BitVec.ofNat 32 (leNat [b0, b1, b2, b3])
    let n := payloadBytes fe h
    { result := decodeHeader fe h (tail.take n)
      rest := tail.drop n
      complete := n ≤ tail.length }
  | _ => { result := .error .noHeader, rest := bytes, complete := false }

/-! ### The encoder -/

/-- The payload of a command, in bytes (R72). -/
def encodePayload (fe : Nat) : Instr → List Byte
  | .status _ => []
  | .new _ _ _ _ => []
  | .reset _ => []
  | .digest _ => []
  | .finalize _ => []
  | .count _ => []
  | .permute w => elemBytes fe w
  | .compress w => elemBytes fe w
  | .spAbsorb e => elemBytes fe e
  | .spSqueeze _ => []
  | .dsAbsorb _ e => elemBytes fe e
  | .absorbDomain ctx => ctx
  | .updBase e => elemBytes fe e
  | .updScalar b => b
  | .updPoint e => elemBytes fe e
  | .updPointInf _ => []
  | .pushTag _ _ => []
  | .pushBytes b => b
  | .pushVarint b => b
  | .pbExtract _ => []
  | .pbFlush _ => []
  | .updBool b => b
  | .updU8 b => b
  | .updU16 b => b
  | .updU32 b => b
  | .updU64 b => b
  | .updU128 b => b
  | .updI8 b => b
  | .updI16 b => b
  | .updI32 b => b
  | .updI64 b => b
  | .updI128 b => b
  | .updStr b => b
  | .updBytes b => b

/-- The header of an opcode whose `ARG` is zero, with a `LEN`. -/
def plainHeader (o : Op) (len : Len) : Header := mkHeader (opCode o) 0 len

/-- The header of an update of a primitive: `LEN` is the byte count of the payload. -/
def kindHeader (k : Kind) (b : List Byte) : Header :=
  mkHeader (opCode .updPrimitive) (kindCode k) (BitVec.ofNat 16 b.length)

/-- The header of a command (R76 to R80). -/
def encodeHeader : Instr → Header
  | .status len => plainHeader .status len
  | .new pk pad ovr len => mkHeader (opCode .new) (newArg pk pad ovr) len
  | .reset len => plainHeader .reset len
  | .digest len => plainHeader .digest len
  | .finalize len => plainHeader .finalize len
  | .count len => plainHeader .count len
  | .permute w => plainHeader .permute (BitVec.ofNat 16 w.length)
  | .compress w => plainHeader .compress (BitVec.ofNat 16 w.length)
  | .spAbsorb e => plainHeader .spAbsorb (BitVec.ofNat 16 e.length)
  | .spSqueeze len => plainHeader .spSqueeze len
  | .dsAbsorb c e => mkHeader (opCode .dsAbsorb) (classCode c) (BitVec.ofNat 16 e.length)
  | .absorbDomain ctx => plainHeader .absorbDomain (BitVec.ofNat 16 ctx.length)
  | .updBase e => plainHeader .updBase (BitVec.ofNat 16 e.length)
  | .updScalar b => plainHeader .updScalar (BitVec.ofNat 16 b.length)
  | .updPoint e => plainHeader .updPoint (BitVec.ofNat 16 e.length)
  | .updPointInf len => mkHeader (opCode .updPoint) 1 len
  | .pushTag k len => mkHeader (opCode .pushTag) (kindCode k) len
  | .pushBytes b => plainHeader .pushBytes (BitVec.ofNat 16 b.length)
  | .pushVarint b => plainHeader .pushVarint (BitVec.ofNat 16 b.length)
  | .pbExtract len => plainHeader .pbExtract len
  | .pbFlush len => plainHeader .pbFlush len
  | .updBool b => kindHeader .bool b
  | .updU8 b => kindHeader .u8 b
  | .updU16 b => kindHeader .u16 b
  | .updU32 b => kindHeader .u32 b
  | .updU64 b => kindHeader .u64 b
  | .updU128 b => kindHeader .u128 b
  | .updI8 b => kindHeader .i8 b
  | .updI16 b => kindHeader .i16 b
  | .updI32 b => kindHeader .i32 b
  | .updI64 b => kindHeader .i64 b
  | .updI128 b => kindHeader .i128 b
  | .updStr b => kindHeader .str b
  | .updBytes b => kindHeader .bytes b

/-- The bytes of a well-formed command on `DIN`: the header, least significant byte first (R88), then
the payload (R72). -/
def encode (fe : Nat) (i : Instr) : List Byte :=
  bytesLE (encodeHeader i).toNat 4 ++ encodePayload fe i

/-! ### One row of the opcode table -/

/-- The bytes of the command whose header is the low `nbits` bits of `w` (bit 0 is the least
significant bit of `H`), with a payload of zero bytes of the length that header announces. -/
def tableBytes (fe nbits w : Nat) : List Byte :=
  let h : Header := BitVec.ofNat 32 (w % 2 ^ nbits)
  bytesLE h.toNat 4 ++ List.replicate (payloadBytes fe h) 0

/-- The command the decoder reads from the bytes of `tableBytes`, for the parameter set of the block
(`FE_BYTES` decides only how many zero bytes the payload has). -/
def decodeTableWord (nbits w : Nat) : Option Instr :=
  let fe := Machine.feBytes Config.params
  match (decode fe (tableBytes fe nbits w)).result with
  | .ok i => some i
  | .error _ => none

end Sys2Proof
end

