-- ==== Sys2Proof/Machine/Status.lean ====
section
/-! DEFINITION. The status codes of a response (spec 30_encoding.md R75; 60_exceptions.md R261). -/

namespace Sys2Proof.Machine

/-- What a response says (60_exceptions.md R261). -/
inductive Status where
  | ok
  | eIllegal
  | eOperand
  | eNotLive
  | eParams
  | eScalarWidth
  | eWidth
  | eBufFull
  | eFaulted
deriving DecidableEq, Repr

/-- The status byte (30_encoding.md R75), also the code that `ERR` holds. -/
def statusCode : Status → Byte
  | .ok => 0x00
  | .eIllegal => 0x01
  | .eOperand => 0x02
  | .eNotLive => 0x03
  | .eParams => 0x04
  | .eScalarWidth => 0x05
  | .eWidth => 0x06
  | .eBufFull => 0x07
  | .eFaulted => 0x08

end Sys2Proof.Machine
end

