-- ==== Sys2Proof/Machine/State.lean ====
section
/-! DEFINITION. The state of the block (spec 10_state.md R20), its ports and its parameter store
(20_memory.md R50), and the state after hardware reset (70_reset_and_hazards.md R290, R295). -/

namespace Sys2Proof.Machine

/-- The sponge mode discriminant (10_state.md R22). -/
inductive Mode where
  | absorbing
  | squeezing
deriving DecidableEq, Repr

/-- The sponge `(S, MODE, IDX)` (41_sponge.md R130). `S` lists the lanes from lane 0; its length is
`WIDTH` and every lane is canonical in every state that a run reaches (R35). -/
@[ext]
structure Sponge where
  lanes : List Nat
  mode : Mode
  idx : Nat
deriving DecidableEq, Repr

/-- The Lane Cursor and the four registers of the pending tweak, the record `T` of
42_domain_separation.md R152 (10_state.md R27, R34). -/
@[ext]
structure Tweak where
  cur : Nat
  present : Bool
  vec : List Nat
  rem : Nat
  align : Bool
deriving DecidableEq, Repr

/-- `CFG` (10_state.md R29). -/
@[ext]
structure Cfg where
  pk : PackMode
  pad : PadPolicy
  maxb : Nat
deriving DecidableEq, Repr

/-- The whole state. The fields from `sponge` to `err` are the architectural state of 10_state.md R20;
`params` is the parameter store, which no command writes (20_memory.md R61); `din`, `dout` and `rst`
are the block's ports to the host. -/
@[ext]
structure State where
  /-- `S`, `MODE`, `IDX` (R21 to R23). -/
  sponge : Sponge
  /-- `BASE_S`, `BASE_MODE`, `BASE_IDX` (R26). -/
  base : Sponge
  /-- `CUR`, `PD_PRESENT`, `PD_VEC`, `PD_REM`, `PD_ALIGN` (R27, R34). -/
  tweak : Tweak
  /-- `COUNT` (R28). -/
  count : BitVec 64
  /-- `BUF`, head first (R32; 20_memory.md R51). -/
  buf : List Byte
  /-- `CFG.PK`, `CFG.PAD`, `CFG.MAXB` (R29). -/
  cfg : Cfg
  /-- `LIVE` (R30). -/
  live : Bool
  /-- `FAULT` (R31). -/
  fault : Bool
  /-- `ERR` (R31). -/
  err : Byte
  /-- The parameter store (20_memory.md R60). -/
  params : Params
  /-- `DIN`: the bytes the host has sent and the block has not consumed, oldest first (R59). -/
  din : List Byte
  /-- `DOUT`: the bytes the block has sent, oldest first (R59). -/
  dout : List Byte
  /-- The event `RST` has come and the block has not acted on it (70_reset_and_hazards.md R290). -/
  rst : Bool
deriving DecidableEq, Repr

/-- Why the machine stops with a fault: never. Every error of the spec is a response after which the
block goes on, with `FAULT` set (60_exceptions.md R262, R263), so there is no constructor. -/
inductive Fault where
deriving DecidableEq, Repr

/-- Why the machine refuses an instruction. -/
inductive Refusal where
  /-- Raised by `exec` alone, for an instruction whose meaning is not written. Safe: a refused step
  proves nothing about the block. -/
  | notModelled (mnemonic : String)
deriving DecidableEq, Repr

/-- A sponge as it is created: zero-filled, `Absorbing{0}` (10_state.md R21, R22). -/
def zeroSponge (C : Params) : Sponge :=
  { lanes := List.replicate C.width 0, mode := .absorbing, idx := 0 }

/-- The Lane Cursor at 0 and no pending tweak, its registers zero (10_state.md R34). -/
def zeroTweak (C : Params) : Tweak :=
  { cur := 0, present := false, vec := List.replicate C.rate 0, rem := 0, align := false }

/-- The reset value of `CFG` (10_state.md R29). -/
def resetCfg (C : Params) : Cfg := { pk := .byteEfficient, pad := .zero, maxb := maxbDefault C }

/-- The block after hardware reset with the parameter set `C` in its store: the first column of
10_state.md R37, and the check of the parameter set at reset exit (70_reset_and_hazards.md R290, R295;
60_exceptions.md R266). Nothing waits on the ports (log entry 2). -/
def State.resetWith (C : Params) : State :=
  { sponge := zeroSponge C
    base := zeroSponge C
    tweak := zeroTweak C
    count := 0
    buf := []
    cfg := resetCfg C
    live := false
    fault := !paramsWF C
    err := if paramsWF C then 0 else statusCode .eParams
    params := C
    din := []
    dout := []
    rst := false }

/-- The machine right after hardware reset: the parameter set is the OPEN one (log entry 1). -/
def State.reset : State := State.resetWith Config.params

end Sys2Proof.Machine
end

