-- ==== Sys2Proof/Machine/Ops.lean ====
section
/-! DEFINITION. The named operations over the state: the updates, the responses (spec 30_encoding.md
R74), raising an error and hardware reset (60_exceptions.md R262; 70_reset_and_hazards.md R290), the
order of checks (R265), the packing buffer's FIFO (20_memory.md R52, R53) and the wipe
(70_reset_and_hazards.md R294). -/

namespace Sys2Proof.Machine

/-! ### Updates of one piece of state -/

/-- Write `S`, `MODE`, `IDX`. -/
def State.setSponge (s : State) (sp : Sponge) : State := { s with sponge := sp }

/-- Write `CUR` and the pending tweak. -/
def State.setTweak (s : State) (t : Tweak) : State := { s with tweak := t }

/-- `COUNT <- (COUNT + n) mod 2^64` (10_state.md R28). -/
def State.addCount (s : State) (n : Nat) : State :=
  { s with count := s.count + BitVec.ofNat 64 n }

/-- Write `BUF`. -/
def State.setBuf (s : State) (b : List Byte) : State := { s with buf := b }

/-- Write `LIVE`. -/
def State.setLive (s : State) (b : Bool) : State := { s with live := b }

/-- Send bytes on `DOUT` (20_memory.md R59). -/
def State.send (s : State) (b : List Byte) : State := { s with dout := s.dout ++ b }

/-- Consume `DIN` up to the bytes `rest` (20_memory.md R59). -/
def State.setDin (s : State) (rest : List Byte) : State := { s with din := rest }

/-! ### Responses and errors -/

/-- `respond(OK, data)` (30_encoding.md R74). -/
def respond (data : List Byte) (s : State) : State := s.send (statusCode .ok :: data)

/-- TAKING AN ERROR, `raise E` (60_exceptions.md R262): `ERR` keeps the first code, `FAULT` is set, and
the response is the status byte alone. Nothing is saved, for nothing resumes (R261). -/
def raise (e : Status) (s : State) : State :=
  { s with
    fault := true
    err := if s.fault then s.err else statusCode e
    dout := s.dout ++ [statusCode e] }

/-- The answer to a command while `FAULT = 1` (60_exceptions.md R273): `E_FAULTED`, no state changes. -/
def refuseFaulted (s : State) : State := s.send [statusCode .eFaulted]

/-- RETURNING FROM AN ERROR: the event `RST`, the only one that clears `FAULT` and `ERR`
(60_exceptions.md R264; 70_reset_and_hazards.md R290, R295). The parameter store stays; unread bytes
of `DIN` are dropped and bytes sent on `DOUT` are the host's (log entry 2). -/
def hardwareReset (s : State) : State := { State.resetWith s.params with dout := s.dout }

/-- A command: the checks in the order of 60_exceptions.md R265, each a failing condition with its
code; the first that fails decides, and the command acts only when none does. `FAULT` comes before
all (R273). -/
def command (checks : List (Bool × Status)) (act : State → State) (s : State) : State :=
  if s.fault then refuseFaulted s
  else
    match checks.find? (fun c => c.1) with
    | some c => raise c.2 s
    | none => act s

/-- The answer to a header that is no command (30_encoding.md R81; 60_exceptions.md R268). -/
def refuseHeader (s : State) : State := command [(true, .eIllegal)] id s

/-! ### The packing buffer -/

/-- `BufPush(b)` (20_memory.md R52); the capacity is a check of the command. -/
def bufPush (b : List Byte) (s : State) : State := s.setBuf (s.buf ++ b)

/-! ### Wipe -/

/-- `wipe()` (70_reset_and_hazards.md R294); it does not touch `LIVE`, `FAULT`, `ERR`. -/
def wipe (s : State) : State :=
  { s with
    sponge := zeroSponge s.params
    base := zeroSponge s.params
    tweak := zeroTweak s.params
    count := 0
    buf := []
    cfg := resetCfg s.params }

end Sys2Proof.Machine
end

