-- ==== Sys2Proof/Machine/Operands.lean ====
section
/-! DEFINITION. The checks of a command's operands, each a failing condition with its status code
(spec 60_exceptions.md R265, R269 to R272), and field elements on `DOUT` (30_encoding.md R73, R74). -/

namespace Sys2Proof.Machine

/-- Check 4: the command needs an instance (60_exceptions.md R270). -/
def notLive (s : State) : Bool × Status := (!s.live, .eNotLive)

/-- Check 5: `SCALAR_BITS > FIELD_BITS` (60_exceptions.md R267). -/
def badScalarWidth (s : State) : Bool × Status := (scalarTooWide s.params, .eScalarWidth)

/-- Check 6: `WIDTH != 4`, for `COMPRESS` (60_exceptions.md R271). -/
def badWidth (s : State) : Bool × Status := (s.params.width != 4, .eWidth)

/-- Check 7: `LEN` is not the value required (60_exceptions.md R269). -/
def badLen (len required : Nat) : Bool × Status := (len != required, .eOperand)

/-- Check 7 for `NEW`: the override is in `1 .. 256`, and `LEN` is 0 without one (45_hasher.md R231). -/
def badOverride (ovr : Bool) (len : Len) : Bool × Status :=
  (if ovr then len.toNat < 1 || 256 < len.toNat else len != 0, .eOperand)

/-- Check 8: a field element of the payload is not canonical (30_encoding.md R73). -/
def badElems (s : State) (e : List Nat) : Bool × Status :=
  (!(e.all (· < s.params.P)), .eOperand)

/-- Check 8 for `UPD_BOOL`: the byte is above 1 (44_packing_buffer.md R205). -/
def badBool (b : List Byte) : Bool × Status := (!(b.all (· ≤ 1)), .eOperand)

/-- Check 9: the push of `n` bytes would exceed `BUF_CAP` (60_exceptions.md R272). -/
def bufFull (s : State) (n : Nat) : Bool × Status :=
  (exceedsCap s.params s.buf.length n, .eBufFull)

/-- Field elements as response data (30_encoding.md R73, R74). -/
def elemData (C : Params) (e : List Nat) : List Byte := elemBytes (feBytes C) e

end Sys2Proof.Machine
end

