-- ==== Sys2Proof/Machine/Permutation.lean ====
section
/-! DEFINITION. The permutation engine (spec 40_permutation.md): the S-box, the linear layers, the two
round schedulers, `PERMUTE` and `COMPRESS`. A vector is the list of its lanes, lane 0 first. -/

namespace Sys2Proof.Machine

/-- Lane `i` of a vector. -/
def lane (x : List Nat) (i : Nat) : Nat := x.getD i 0

/-- The vector of `WIDTH` lanes whose lane `i` is `f i`. -/
def vector (C : Params) (f : Nat → Nat) : List Nat := (List.range C.width).map f

/-- The S-box by the multiplication chains of R102, for the degrees 3, 5 and 7 that `ParamsWF` admits;
for any other degree, which no permutation meets, the power itself (R101; log entry 8: DESIGN CHOICE). -/
def sbox (C : Params) (x : Nat) : Nat :=
  let x2 := fmul C.P x x
  if C.d = 3 then fmul C.P x2 x
  else
    let x4 := fmul C.P x2 x2
    if C.d = 5 then fmul C.P x4 x
    else if C.d = 7 then fmul C.P (fmul C.P x4 x2) x
    else fpow C.P x C.d

/-- Entry `i` of `M4` applied to the lanes `at`, `at + 1`, `at + 2`, `at + 3` (R105). -/
def m4Row (C : Params) (x : List Nat) (i at_ : Nat) : Nat :=
  fsum C.P ((List.range 4).map (fun j => fmul C.P (tableAt C.m4 i j) (lane x (at_ + j))))

/-- The external mix of widths 2 and 3: the circulant `2, 1, ..., 1` (R104). -/
def extMixSmall (C : Params) (x : List Nat) : List Nat :=
  let s := fsum C.P ((List.range C.width).map (lane x))
  vector C (fun i => fadd C.P (lane x i) s)

/-- `M4` applied to each block of four lanes (R105, and the first line of R106). -/
def m4Blocks (C : Params) (x : List Nat) : List Nat :=
  vector C (fun i => m4Row C x (i % 4) (4 * (i / 4)))

/-- The external mix of widths `4 k`, `k >= 2`: the blocks, then the sums over all blocks, a lane's own
block included (R106). -/
def extMixBlocks (C : Params) (x : List Nat) : List Nat :=
  let z := m4Blocks C x
  vector C (fun i => fadd C.P (lane z i)
    (fsum C.P ((List.range (C.width / 4)).map (fun j => lane z (4 * j + i % 4)))))

/-- `ext_mix` (R104 to R107). For a width without an external mix it is never evaluated (R107); there
it is the identity (log entry 5). -/
def extMix (C : Params) (x : List Nat) : List Nat :=
  if C.width = 2 ∨ C.width = 3 then extMixSmall C x
  else if C.width = 4 then m4Blocks C x
  else if C.width % 4 = 0 then extMixBlocks C x
  else vector C (lane x)

/-- `int_mix` (R108): the sum of all lanes plus `DIAG[i]` times the lane. -/
def intMix (C : Params) (x : List Nat) : List Nat :=
  let s := fsum C.P ((List.range C.width).map (lane x))
  vector C (fun i => fadd C.P s (fmul C.P (lane C.diag i) (lane x i)))

/-- `mds_mix` (R114): the full matrix. -/
def mdsMix (C : Params) (x : List Nat) : List Nat :=
  vector C (fun i =>
    fsum C.P ((List.range C.width).map (fun j => fmul C.P (tableAt C.mds i j) (lane x j))))

/-- Add row `r` of the round constants to every lane (R103, R110). -/
def addRow (C : Params) (r : Nat) (x : List Nat) : List Nat :=
  vector C (fun i => fadd C.P (lane x i) (tableAt C.rc r i))

/-- The S-box on every lane (R103). -/
def sboxAll (C : Params) (x : List Nat) : List Nat := vector C (fun i => sbox C (lane x i))

/-- A step on lane 0 only; lanes `1 .. WIDTH-1` pass unchanged (R103). -/
def onLane0 (C : Params) (f : Nat → Nat) (x : List Nat) : List Nat :=
  vector C (fun i => if i = 0 then f (lane x 0) else lane x i)

/-- A full round of the cheap schedule (R110). -/
def fullRound (C : Params) (r : Nat) (x : List Nat) : List Nat :=
  extMix C (sboxAll C (addRow C r x))

/-- A partial round of the cheap schedule (R111). -/
def partialRound (C : Params) (r : Nat) (x : List Nat) : List Nat :=
  intMix C (onLane0 C (sbox C) (onLane0 C (fun v => fadd C.P v (tableAt C.rc r 0)) x))

/-- The rounds `start .. start + n - 1`, in that order (R112). -/
def rounds (f : Nat → List Nat → List Nat) (start n : Nat) (x : List Nat) : List Nat :=
  (List.range' start n).foldl (fun y r => f r y) x

/-- `permute_cheap` (R113). -/
def permuteCheap (C : Params) (x : List Nat) : List Nat :=
  let h := C.rf / 2
  let x := extMix C x
  let x := rounds (fullRound C) 0 h x
  let x := rounds (partialRound C) h C.rp x
  rounds (fullRound C) (h + C.rp) (C.rf + C.rp - (h + C.rp)) x

/-- A round of the classic schedule (R114). -/
def classicRound (C : Params) (r : Nat) (x : List Nat) : List Nat :=
  let h := C.rf / 2
  let y := addRow C r x
  mdsMix C (if r < h ∨ h + C.rp ≤ r then sboxAll C y else onLane0 C (sbox C) y)

/-- `permute_classic` (R114), with no mixing pass before round 0. -/
def permuteClassic (C : Params) (x : List Nat) : List Nat :=
  rounds (classicRound C) 0 (C.rf + C.rp) x

/-- `permute` (R116). -/
def permute (C : Params) (x : List Nat) : List Nat :=
  match C.schedule with
  | .cheap => permuteCheap C x
  | .classic => permuteClassic C x

/-! ### Commands -/

/-- `PERMUTE` (R118). It needs no instance and changes no state. -/
def execPermute (w : List Nat) (s : State) : Host.Outcome State Fault Refusal :=
  .next (command [badLen w.length s.params.width, badElems s w]
    (fun s => respond (elemData s.params (permute s.params w)) s) s)

/-- `COMPRESS` (R119). It needs no instance and changes no state. -/
def execCompress (w : List Nat) (s : State) : Host.Outcome State Fault Refusal :=
  .next (command [badWidth s, badLen w.length 3, badElems s w]
    (fun s => respond (elemData s.params [lane (permute s.params (w ++ [0])) 0]) s) s)

end Sys2Proof.Machine
end

