-- ==== Sys2Proof/Machine/Duplex.lean ====
section
/-! DEFINITION. The duplex sponge controller (spec 41_sponge.md): `sp_absorb`, `sp_squeeze`,
`SP_ABSORB` and `SP_SQUEEZE`. -/

namespace Sys2Proof.Machine

/-- `S <- permute(S)` and `IDX <- 0`. -/
def permuteSponge (C : Params) (sp : Sponge) : Sponge :=
  { sp with lanes := permute C sp.lanes, idx := 0 }

/-- Add the elements `e` to the lanes from `at` on: `S[at + j] <- S[at + j] +F E[j]` (R131). -/
def addLanes (P : Nat) (at_ : Nat) : List Nat → List Nat → List Nat
  | lanes, [] => lanes
  | lanes, v :: e => addLanes P (at_ + 1) (lanes.set at_ (fadd P (lane lanes at_) v)) e

/-- The loop of `sp_absorb` (R131), `fuel` passes at most: as many elements as fit before `RATE`, then
permute and go on from rate lane 0 while elements remain. -/
def absorbLoop (C : Params) : Nat → Sponge → List Nat → Sponge
  | 0, sp, _ => sp
  | fuel + 1, sp, e =>
    let m := min e.length (C.rate - sp.idx)
    let sp1 := { sp with lanes := addLanes C.P (C.capacity + sp.idx) sp.lanes (e.take m) }
    if m < e.length then absorbLoop C fuel (permuteSponge C sp1) (e.drop m)
    else { sp1 with idx := sp.idx + m }

/-- The first step of a non-empty `sp_absorb` (R131, R133). -/
def absorbStart (C : Params) (sp : Sponge) : Sponge :=
  match sp.mode with
  | .squeezing =>
    { (if C.sqzAbsPermute then permuteSponge C sp else sp) with mode := .absorbing, idx := 0 }
  | .absorbing => if sp.idx = C.rate then permuteSponge C sp else sp

/-- `sp_absorb(E)` (R131); nothing at all for an empty list (R132). A pass adds at least one element
when `RATE >= 1`, so `|E| + 1` passes are enough. -/
def spAbsorb (C : Params) (sp : Sponge) (e : List Nat) : Sponge :=
  match e with
  | [] => sp
  | _ :: _ => absorbLoop C (e.length + 1) (absorbStart C sp) e

/-- The loop of `sp_squeeze` (R134), `fuel` passes at most: the elements read and the sponge after. -/
def squeezeLoop (C : Params) : Nat → Sponge → Nat → List Nat × Sponge
  | 0, sp, _ => ([], sp)
  | fuel + 1, sp, n =>
    let m := min n (C.rate - sp.idx)
    let out := (List.range m).map (fun j => lane sp.lanes (C.capacity + sp.idx + j))
    let sp1 := { sp with idx := sp.idx + m }
    if m < n then
      let r := squeezeLoop C fuel (permuteSponge C sp1) (n - m)
      (out ++ r.1, r.2)
    else (out, sp1)

/-- The first step of `sp_squeeze` (R134): leaving `ABSORBING` permutes once, whatever `IDX` is. -/
def squeezeStart (C : Params) (sp : Sponge) : Sponge :=
  match sp.mode with
  | .absorbing => { permuteSponge C sp with mode := .squeezing }
  | .squeezing => sp

/-- `sp_squeeze(n)` (R134, R135). The first pass may read nothing and every later one reads at least
one element when `RATE >= 1`, so `n + 1` passes are enough. -/
def spSqueeze (C : Params) (sp : Sponge) (n : Nat) : List Nat × Sponge :=
  squeezeLoop C (n + 1) (squeezeStart C sp) n

/-! ### Commands -/

/-- `SP_ABSORB` (R137). -/
def execSpAbsorb (e : List Nat) (s : State) : Host.Outcome State Fault Refusal :=
  .next (command [notLive s, badElems s e]
    (fun s => respond [] (s.setSponge (spAbsorb s.params s.sponge e))) s)

/-- `SP_SQUEEZE` (R138). -/
def execSpSqueeze (len : Len) (s : State) : Host.Outcome State Fault Refusal :=
  .next (command [notLive s]
    (fun s =>
      let r := spSqueeze s.params s.sponge len.toNat
      respond (elemData s.params r.1) (s.setSponge r.2)) s)

end Sys2Proof.Machine
end

