-- ==== Sys2Proof/Machine/Domain.lean ====
section
/-! DEFINITION. The domain separation tweaker (spec 42_domain_separation.md): the lane-tweak transform,
its mutating form, installing a context, `DS_ABSORB` and `ABSORB_DOMAIN`. -/

namespace Sys2Proof.Machine

/-- One lane of the pending tweak is used up (R152): when none is left the tweak clears itself, and its
registers hold zero (10_state.md R34). -/
def consumeTweak (C : Params) (t : Tweak) : Tweak :=
  if t.rem - 1 = 0 then
    { t with present := false, vec := List.replicate C.rate 0, rem := 0, align := false }
  else { t with rem := t.rem - 1, align := false }

/-- The pending tweak applies to an element at lane `l` (R152): from the next lane 0 on while it waits
for the start of a block, and while lanes remain. -/
def tweakApplies (t : Tweak) (l : Nat) : Bool :=
  t.present && (!t.align || l == 0) && 0 < t.rem

/-- One position of the transform (R152): the class constant, then the pending tweak on top of it. -/
def tweakElem (C : Params) (c : ClassCode) (l : Nat) (t : Tweak) (e : Nat) : Nat × Tweak :=
  let v := fadd C.P e (classConstAt C c l)
  if tweakApplies t l then (fadd C.P v (lane t.vec l), consumeTweak C t) else (v, t)

/-- The positions of a batch in order (R152). `cur` is the cursor before the batch and `p` the position
of the first element of `e`; the cursor in `t` is not read or written. -/
def tweakLoop (C : Params) (c : ClassCode) (cur : Nat) : Nat → Tweak → List Nat → List Nat × Tweak
  | _, t, [] => ([], t)
  | p, t, e :: es =>
    let r := tweakElem C c ((cur + p) % C.rate) t e
    let rs := tweakLoop C c cur (p + 1) r.2 es
    (r.1 :: rs.1, rs.2)

/-- `ds_transform(c, E)` on a record `T` (R152): the tweaked elements and the record after. The preview
of R158 is this function on a copy. -/
def dsTransform (C : Params) (c : ClassCode) (t : Tweak) (e : List Nat) : List Nat × Tweak :=
  let r := tweakLoop C c t.cur 0 t e
  (r.1, { r.2 with cur := (t.cur + e.length) % C.rate })

/-- `ds_absorb(c, E)` (R155): the transform on the live registers, the counter, the live sponge. -/
def dsAbsorb (c : ClassCode) (e : List Nat) (s : State) : State :=
  let r := dsTransform s.params c s.tweak e
  let s := (s.setTweak r.2).addCount e.length
  s.setSponge (spAbsorb s.params s.sponge r.1)

/-- The pending tweak that a context installs (R156); it replaces any other (R157). -/
def contextTweak (C : Params) (ctx : List Byte) (t : Tweak) : Tweak :=
  { cur := t.cur
    present := true
    vec := (List.range C.rate).map (domainDerive C ctx)
    rem := C.rate
    align := true }

/-! ### Commands -/

/-- `DS_ABSORB` (R159). -/
def execDsAbsorb (c : ClassCode) (e : List Nat) (s : State) : Host.Outcome State Fault Refusal :=
  .next (command [notLive s, badElems s e] (fun s => respond [] (dsAbsorb c e s)) s)

/-- `ABSORB_DOMAIN` (R160). -/
def execAbsorbDomain (ctx : List Byte) (s : State) : Host.Outcome State Fault Refusal :=
  .next (command [notLive s]
    (fun s => respond [] (s.setTweak (contextTweak s.params ctx s.tweak))) s)

end Sys2Proof.Machine
end

