-- ==== Sys2Proof/Machine/Adapter.lean ====
section
/-! DEFINITION. The field adapter (spec 43_field_adapter.md): `UPD_BASE`, `UPD_SCALAR`, `UPD_POINT`,
`UPD_POINT_INF`. Each makes one call of `ds_absorb` (R170) and none touches the packing buffer. -/

namespace Sys2Proof.Machine

/-- `UPD_BASE` (R171). -/
def execUpdBase (e : List Nat) (s : State) : Host.Outcome State Fault Refusal :=
  .next (command [notLive s, badLen e.length 1, badElems s e]
    (fun s => respond [] (dsAbsorb .base e s)) s)

/-- `UPD_SCALAR` (R173): the payload is raw bytes, reduced modulo `P`. -/
def execUpdScalar (b : List Byte) (s : State) : Host.Outcome State Fault Refusal :=
  .next (command [notLive s, badScalarWidth s, badLen b.length (scalarBytes s.params)]
    (fun s => respond [] (dsAbsorb .scalar [leNat b % s.params.P] s)) s)

/-- `UPD_POINT` (R174): `x`, then `y`, one batch. -/
def execUpdPoint (e : List Nat) (s : State) : Host.Outcome State Fault Refusal :=
  .next (command [notLive s, badLen e.length 2, badElems s e]
    (fun s => respond [] (dsAbsorb .pointFinite e s)) s)

/-- `UPD_POINT_INF` (R175): one zero element. -/
def execUpdPointInf (len : Len) (s : State) : Host.Outcome State Fault Refusal :=
  .next (command [notLive s, badLen len.toNat 0]
    (fun s => respond [] (dsAbsorb .pointInf [0] s)) s)

end Sys2Proof.Machine
end

