-- ==== Sys2Proof/Machine/Flags.lean ====
section
/-! DEFINITION. The flags byte of `STATUS`. The block has no arithmetic condition codes (spec
10_state.md R33); what sets its one-bit state stands with the commands. -/

namespace Sys2Proof.Machine

/-- The flags byte `LIVE + 2 * FAULT`, bits 7:2 zero (30_encoding.md R74; 45_hasher.md R241). -/
def statusFlags (s : State) : Byte :=
  (if s.live then 1 else 0) + 2 * (if s.fault then 1 else 0)

end Sys2Proof.Machine
end

