-- ==== Sys2Proof/Machine/Packing.lean ====
section
/-! DEFINITION. The packing buffer (spec 44_packing_buffer.md): serialised forms, extraction, flushing,
`PUSH_*`, `PB_*` and the updates of primitives. -/

namespace Sys2Proof.Machine

/-! ### Serialised forms -/

/-- The groups of `leb128(v)`, at most `fuel + 1` of them (R192). -/
def leb128Groups : Nat → Nat → List Byte
  | 0, v => [BitVec.ofNat 8 (v % 128)]
  | fuel + 1, v =>
    if v / 128 = 0 then [BitVec.ofNat 8 (v % 128)]
    else BitVec.ofNat 8 (v % 128 + 128) :: leb128Groups fuel (v / 128)

/-- `leb128(v)` (R192); `v` itself bounds the number of groups. -/
def leb128 (v : Nat) : List Byte := leb128Groups v v

/-- The serialised form of a value of a kind from its payload bytes (R188, R195): the tag, for strings
and byte strings the length, the payload. -/
def serialize (C : Params) (k : Kind) (b : List Byte) : List Byte :=
  match k with
  | .str => tagAt C k :: (leb128 b.length ++ b)
  | .bytes => tagAt C k :: (leb128 b.length ++ b)
  | _ => tagAt C k :: b

/-! ### Extraction and flushing -/

/-- `CHUNK` (R199). -/
def chunkSize (c : Cfg) : Nat :=
  match c.pk with
  | .byteEfficient => c.maxb
  | .circuitFriendly => 1

/-- A chunk of bytes as a field element, `LE(c) mod P` (R196). -/
def chunkElem (P : Nat) (c : List Byte) : Nat := leNat c % P

/-- `drain` (R201) with chunks of `n` bytes, at most `fuel` of them: the elements and the bytes left. -/
def drainLoop (P n : Nat) : Nat → List Byte → List Nat × List Byte
  | 0, b => ([], b)
  | fuel + 1, b =>
    if n ≤ b.length then
      let r := drainLoop P n fuel (b.drop n)
      (chunkElem P (b.take n) :: r.1, r.2)
    else ([], b)

/-- `drain(B)` (R201). A chunk has at least one byte, so `|B|` chunks are enough. -/
def drain (C : Params) (c : Cfg) (b : List Byte) : List Nat × List Byte :=
  drainLoop C.P (chunkSize c) b.length b

/-- The count byte of length-prefix padding (R203): it holds `r <= 255`; beyond that the spec states no
value (log entry 9). -/
def countByte (r : Nat) : Byte := if r ≤ 255 then BitVec.ofNat 8 r else Config.wideCountByte r

/-- The padded chunk of a remainder (R203, R204). -/
def paddedChunk (c : Cfg) (b : List Byte) : List Byte :=
  match c.pad with
  | .lengthPrefix => countByte b.length :: (b ++ List.replicate (c.maxb - b.length - 1) 0)
  | .zero => b ++ List.replicate (c.maxb - b.length) 0

/-- `flush_list(B)` (R202): the whole chunks, then the padded remainder if there is one. -/
def flushList (C : Params) (c : Cfg) (b : List Byte) : List Nat :=
  let r := drain C c b
  match r.2 with
  | [] => r.1
  | _ :: _ => r.1 ++ [chunkElem C.P (paddedChunk c r.2)]

/-- `extract()` on the live buffer (R201, R224). -/
def extract (s : State) : State :=
  let r := drain s.params s.cfg s.buf
  dsAbsorb .primitive r.1 (s.setBuf r.2)

/-- `flush()` on the live buffer (R202, R224). -/
def flush (s : State) : State :=
  dsAbsorb .primitive (flushList s.params s.cfg s.buf) (s.setBuf [])

/-! ### Commands on the buffer -/

/-- `PUSH_TAG` (R189). -/
def execPushTag (k : Kind) (len : Len) (s : State) : Host.Outcome State Fault Refusal :=
  .next (command [notLive s, badLen len.toNat 0, bufFull s 1]
    (fun s => respond [] (bufPush [tagAt s.params k] s)) s)

/-- `PUSH_BYTES` (R190). -/
def execPushBytes (b : List Byte) (s : State) : Host.Outcome State Fault Refusal :=
  .next (command [notLive s, bufFull s b.length] (fun s => respond [] (bufPush b s)) s)

/-- `PUSH_VARINT` (R191). -/
def execPushVarint (b : List Byte) (s : State) : Host.Outcome State Fault Refusal :=
  .next (command [notLive s, badLen b.length 8, bufFull s (leb128 (leNat b)).length]
    (fun s => respond [] (bufPush (leb128 (leNat b)) s)) s)

/-- `PB_EXTRACT` (R209). -/
def execPbExtract (len : Len) (s : State) : Host.Outcome State Fault Refusal :=
  .next (command [notLive s, badLen len.toNat 0] (fun s => respond [] (extract s)) s)

/-- `PB_FLUSH` (R210). -/
def execPbFlush (len : Len) (s : State) : Host.Outcome State Fault Refusal :=
  .next (command [notLive s, badLen len.toNat 0] (fun s => respond [] (flush s)) s)

/-! ### Updates of primitives -/

/-- `upd_primitive(k, b)` (R195) after the checks of the command's own operand. -/
def updPrimitive (k : Kind) (b : List Byte) (checks : List (Bool × Status)) (s : State) : State :=
  command (notLive s :: checks ++ [bufFull s (serialize s.params k b).length])
    (fun s => respond [] (extract (bufPush (serialize s.params k b) s))) s

/-- `UPD_BOOL` (R211). -/
def execUpdBool (b : List Byte) (s : State) : Host.Outcome State Fault Refusal :=
  .next (updPrimitive .bool b [badLen b.length 1, badBool b] s)

/-- `UPD_U8` (R212). -/
def execUpdU8 (b : List Byte) (s : State) : Host.Outcome State Fault Refusal :=
  .next (updPrimitive .u8 b [badLen b.length 1] s)

/-- `UPD_U16` (R213). -/
def execUpdU16 (b : List Byte) (s : State) : Host.Outcome State Fault Refusal :=
  .next (updPrimitive .u16 b [badLen b.length 2] s)

/-- `UPD_U32` (R214). -/
def execUpdU32 (b : List Byte) (s : State) : Host.Outcome State Fault Refusal :=
  .next (updPrimitive .u32 b [badLen b.length 4] s)

/-- `UPD_U64` (R215). -/
def execUpdU64 (b : List Byte) (s : State) : Host.Outcome State Fault Refusal :=
  .next (updPrimitive .u64 b [badLen b.length 8] s)

/-- `UPD_U128` (R216). -/
def execUpdU128 (b : List Byte) (s : State) : Host.Outcome State Fault Refusal :=
  .next (updPrimitive .u128 b [badLen b.length 16] s)

/-- `UPD_I8` (R217). -/
def execUpdI8 (b : List Byte) (s : State) : Host.Outcome State Fault Refusal :=
  .next (updPrimitive .i8 b [badLen b.length 1] s)

/-- `UPD_I16` (R218). -/
def execUpdI16 (b : List Byte) (s : State) : Host.Outcome State Fault Refusal :=
  .next (updPrimitive .i16 b [badLen b.length 2] s)

/-- `UPD_I32` (R219). -/
def execUpdI32 (b : List Byte) (s : State) : Host.Outcome State Fault Refusal :=
  .next (updPrimitive .i32 b [badLen b.length 4] s)

/-- `UPD_I64` (R220). -/
def execUpdI64 (b : List Byte) (s : State) : Host.Outcome State Fault Refusal :=
  .next (updPrimitive .i64 b [badLen b.length 8] s)

/-- `UPD_I128` (R221). -/
def execUpdI128 (b : List Byte) (s : State) : Host.Outcome State Fault Refusal :=
  .next (updPrimitive .i128 b [badLen b.length 16] s)

/-- `UPD_STR` (R222): no `LEN` is wrong for it. -/
def execUpdStr (b : List Byte) (s : State) : Host.Outcome State Fault Refusal :=
  .next (updPrimitive .str b [] s)

/-- `UPD_BYTES` (R223): no `LEN` is wrong for it. -/
def execUpdBytes (b : List Byte) (s : State) : Host.Outcome State Fault Refusal :=
  .next (updPrimitive .bytes b [] s)

end Sys2Proof.Machine
end

