-- ==== Sys2Proof/Machine/Hasher.lean ====
section
/-! DEFINITION. The hasher façade (spec 45_hasher.md): `STATUS`, `NEW`, `RESET`, `DIGEST`, `FINALIZE`,
`COUNT`. -/

namespace Sys2Proof.Machine

/-- `decode(ARG, LEN)`, the configuration that `NEW` writes (R232). -/
def newCfg (C : Params) (pk : PackMode) (pad : PadPolicy) (ovr : Bool) (len : Len) : Cfg :=
  { pk := pk, pad := pad, maxb := if ovr then len.toNat else maxbDefault C }

/-- Building an instance (R231): wiped first, then a zero-filled sponge, its snapshot, an empty buffer,
the cursor at 0, no pending tweak. -/
def buildInstance (cfg : Cfg) (s : State) : State :=
  let s := wipe s
  let s := { s with sponge := zeroSponge s.params }
  { s with
    base := s.sponge
    buf := []
    tweak := zeroTweak s.params
    count := 0
    cfg := cfg
    live := true }

/-- The reset of an instance (R239): the sponge from its snapshot, buffer, cursor, counter and tweak
cleared. -/
def resetInstance (s : State) : State :=
  { s with
    sponge := s.base
    buf := []
    tweak := zeroTweak s.params
    count := 0 }

/-- The element that `DIGEST` returns (R236): flush, preview, absorb and squeeze on copies. -/
def digestElem (s : State) : Nat :=
  let e := flushList s.params s.cfg s.buf
  let v := (dsTransform s.params .primitive s.tweak e).1
  lane (spSqueeze s.params (spAbsorb s.params s.sponge v) 1).1 0

/-- `FINALIZE` once its checks have passed (R237): flush the live buffer, squeeze one element, wipe, end
the instance, answer the element. -/
def finalizeInstance (s : State) : State :=
  let s := flush s
  let r := spSqueeze s.params s.sponge 1
  let s := (wipe (s.setSponge r.2)).setLive false
  respond (elemData s.params [lane r.1 0]) s

/-! ### Commands -/

/-- `STATUS` (R241): the only command answered while `FAULT = 1`. -/
def execStatus (len : Len) (s : State) : Host.Outcome State Fault Refusal :=
  .next (if len = 0 then respond [statusFlags s, s.err] s
    else command [badLen len.toNat 0] id s)

/-- `NEW` (R231). It does not need an instance; a live one is ended without a result (R233). -/
def execNew (pk : PackMode) (pad : PadPolicy) (ovr : Bool) (len : Len) (s : State) :
    Host.Outcome State Fault Refusal :=
  .next (command [badScalarWidth s, badOverride ovr len]
    (fun s => respond [] (buildInstance (newCfg s.params pk pad ovr len) s)) s)

/-- `RESET` (R239). -/
def execReset (len : Len) (s : State) : Host.Outcome State Fault Refusal :=
  .next (command [notLive s, badLen len.toNat 0] (fun s => respond [] (resetInstance s)) s)

/-- `DIGEST` (R236): it changes no state. -/
def execDigest (len : Len) (s : State) : Host.Outcome State Fault Refusal :=
  .next (command [notLive s, badLen len.toNat 0]
    (fun s => respond (elemData s.params [digestElem s]) s) s)

/-- `FINALIZE` (R237). -/
def execFinalize (len : Len) (s : State) : Host.Outcome State Fault Refusal :=
  .next (command [notLive s, badLen len.toNat 0] finalizeInstance s)

/-- `COUNT` (R240): it changes no state. -/
def execCount (len : Len) (s : State) : Host.Outcome State Fault Refusal :=
  .next (command [notLive s, badLen len.toNat 0]
    (fun s => respond (bytesLE s.count.toNat 8) s) s)

end Sys2Proof.Machine
end

