-- ==== Sys2Proof/Machine/Dispatch.lean ====
section
/-! DEFINITION. The meaning of a command: one arm for each constructor of `Instr`. -/

namespace Sys2Proof.Machine

def exec (i : Instr) (s : State) : Host.Outcome State Fault Refusal :=
  match i with
  | .status len => Sys2Proof.Machine.execStatus len s
  | .new pk pad ovr len => Sys2Proof.Machine.execNew pk pad ovr len s
  | .reset len => Sys2Proof.Machine.execReset len s
  | .digest len => Sys2Proof.Machine.execDigest len s
  | .finalize len => Sys2Proof.Machine.execFinalize len s
  | .count len => Sys2Proof.Machine.execCount len s
  | .permute w => Sys2Proof.Machine.execPermute w s
  | .compress w => Sys2Proof.Machine.execCompress w s
  | .spAbsorb e => Sys2Proof.Machine.execSpAbsorb e s
  | .spSqueeze len => Sys2Proof.Machine.execSpSqueeze len s
  | .dsAbsorb c e => Sys2Proof.Machine.execDsAbsorb c e s
  | .absorbDomain ctx => Sys2Proof.Machine.execAbsorbDomain ctx s
  | .updBase e => Sys2Proof.Machine.execUpdBase e s
  | .updScalar b => Sys2Proof.Machine.execUpdScalar b s
  | .updPoint e => Sys2Proof.Machine.execUpdPoint e s
  | .updPointInf len => Sys2Proof.Machine.execUpdPointInf len s
  | .pushTag k len => Sys2Proof.Machine.execPushTag k len s
  | .pushBytes b => Sys2Proof.Machine.execPushBytes b s
  | .pushVarint b => Sys2Proof.Machine.execPushVarint b s
  | .pbExtract len => Sys2Proof.Machine.execPbExtract len s
  | .pbFlush len => Sys2Proof.Machine.execPbFlush len s
  | .updBool b => Sys2Proof.Machine.execUpdBool b s
  | .updU8 b => Sys2Proof.Machine.execUpdU8 b s
  | .updU16 b => Sys2Proof.Machine.execUpdU16 b s
  | .updU32 b => Sys2Proof.Machine.execUpdU32 b s
  | .updU64 b => Sys2Proof.Machine.execUpdU64 b s
  | .updU128 b => Sys2Proof.Machine.execUpdU128 b s
  | .updI8 b => Sys2Proof.Machine.execUpdI8 b s
  | .updI16 b => Sys2Proof.Machine.execUpdI16 b s
  | .updI32 b => Sys2Proof.Machine.execUpdI32 b s
  | .updI64 b => Sys2Proof.Machine.execUpdI64 b s
  | .updI128 b => Sys2Proof.Machine.execUpdI128 b s
  | .updStr b => Sys2Proof.Machine.execUpdStr b s
  | .updBytes b => Sys2Proof.Machine.execUpdBytes b s

end Sys2Proof.Machine
end

