-- ==== Sys2Proof/Machine/Fetch.lean ====
section
/-! DEFINITION. Taking a command from the port (spec 30_encoding.md R70 to R72; 20_memory.md R59). The
block has no program counter and no instruction memory (10_state.md R24): the next command is what
the host has sent on `DIN`. -/

namespace Sys2Proof.Machine

/-- What stands at the front of `DIN`. -/
def fetch (s : State) : Decoded := decode (feBytes s.params) s.din

/-- The outcome of a command whose header the block has seen: the command's own when its whole payload
is there; until then the block waits and nothing changes, for it reads the whole payload before it
changes any state (20_memory.md R59; log entry 4). -/
def awaitPayload (complete : Bool) (s : State) (out : Host.Outcome State Fault Refusal) :
    Host.Outcome State Fault Refusal :=
  match out with
  | .next t => .next (if complete then t else s)
  | .fault f => .fault f
  | .refused r => .refused r

/-- The state with exactly the bytes of one row of the opcode table on `DIN`. -/
def loadTableWord (s : State) (nbits w : Nat) : State :=
  { s with din := tableBytes (feBytes s.params) nbits w, rst := false }

end Sys2Proof.Machine
end

