-- ==== Sys2Proof/Machine/Step.lean ====
section
/-! DEFINITION. One step of the block: the event `RST`, else the next command of the host. -/

namespace Sys2Proof.Machine

/-- One step. The event `RST` comes before any command (70_reset_and_hazards.md R290). Otherwise the
block takes the command at the front of `DIN`: its bytes are consumed, then it runs (30_encoding.md
R70, R72). A header that is no command is answered (60_exceptions.md R268). With nothing, or not all
of a command, on `DIN` the block waits (log entry 4). -/
def step (s : State) : Host.Outcome State Fault Refusal :=
  if s.rst then .next (hardwareReset s)
  else
    match (fetch s).result with
    | .ok i => awaitPayload (fetch s).complete s (exec i (s.setDin (fetch s).rest))
    | .error _ => awaitPayload (fetch s).complete s (.next (refuseHeader (s.setDin (fetch s).rest)))

/-- The state in which the next step takes exactly the command whose header is the low `nbits` bits of
`w`, with a payload of zero bytes: the host has just sent it (log entry 2). -/
def State.withFetchWord (s : State) (nbits w : Nat) : State := loadTableWord s nbits w

end Sys2Proof.Machine
end

