-- ==== Sys2Proof/Safety.lean ====
section
/-! DEFINITION. The terms in which claims about the block are stated: the invariant of spec 10_state.md
R35, the legal headers of 30_encoding.md R81, the table of checks of 60_exceptions.md R265, the size of the
batch a command absorbs and sequences of commands. Each is written from the spec's rule, not from a
meaning. -/

namespace Sys2Proof.Machine

/-! ### States that execute -/

/-- The block executes commands on a live instance: `FAULT = 0` and `LIVE = 1`. -/
def State.Ready (s : State) : Prop := s.fault = false ∧ s.live = true

/-- Every entry is a canonical field element (00_scope.md R10). -/
def Canonical (P : Nat) (x : List Nat) : Prop := ∀ v ∈ x, v < P

/-- A vector of `WIDTH` canonical field elements. -/
def LaneVector (C : Params) (x : List Nat) : Prop := x.length = C.width ∧ Canonical C.P x

/-- The push of `n` bytes fits `BUF_CAP` (20_memory.md R52). -/
def Fits (s : State) (n : Nat) : Prop := ∀ cap, s.params.bufCap = some cap → s.buf.length + n ≤ cap

/-! ### The invariant (10_state.md R35) -/

/-- R35 (a), (b) of a sponge; `S` has `WIDTH` lanes (R21). -/
def SpongeOk (C : Params) (sp : Sponge) : Prop := LaneVector C sp.lanes ∧ sp.idx ≤ C.rate

/-- R35 (a), (c), (d), (e) of the cursor and the pending tweak; `PD_VEC` has `RATE` lanes (R34). -/
structure TweakOk (C : Params) (t : Tweak) : Prop where
  cur_lt : t.cur < C.rate
  vec_length : t.vec.length = C.rate
  vec_canonical : Canonical C.P t.vec
  rem_pos : t.present = true → 1 ≤ t.rem
  rem_le : t.rem ≤ C.rate
  aligned : t.present = true → t.align = true → t.rem = C.rate
  cleared : t.present = false →
    t.rem = 0 ∧ t.align = false ∧ t.vec = List.replicate C.rate 0

/-- What R35 says of the architectural state when the parameter set is well-formed; with the range of
`CFG.MAXB` from below (R29), the bound on `BUF` (R20) and the value of the base snapshot (R26). -/
structure InstanceOk (s : State) : Prop where
  sponge : SpongeOk s.params s.sponge
  base : s.base = zeroSponge s.params
  tweak : TweakOk s.params s.tweak
  maxb : 1 ≤ s.cfg.maxb
  buf : Fits s 0
  dead : s.live = false →
    s.sponge = zeroSponge s.params ∧ s.tweak = zeroTweak s.params ∧ s.count = 0 ∧ s.buf = []
      ∧ s.cfg = resetCfg s.params

/-- The invariant of the block: R35 (g); a malformed parameter set has faulted it (60_exceptions.md
R266); R35 (a) to (f) on a well-formed one. -/
structure State.Inv (s : State) : Prop where
  err : s.fault = false ↔ s.err = 0
  params : paramsWF s.params = false → s.fault = true
  ok : paramsWF s.params = true → InstanceOk s

/-- The commands of the façade for which R35 (h) speaks. -/
def facadeCommand : Instr → Bool
  | .status _ => true
  | .new _ _ _ _ => true
  | .reset _ => true
  | .digest _ => true
  | .finalize _ => false
  | .count _ => true
  | .permute _ => false
  | .compress _ => false
  | .spAbsorb _ => false
  | .spSqueeze _ => false
  | .dsAbsorb _ _ => false
  | .absorbDomain _ => true
  | .updBase _ => true
  | .updScalar _ => true
  | .updPoint _ => true
  | .updPointInf _ => true
  | .pushTag _ _ => false
  | .pushBytes _ => false
  | .pushVarint _ => false
  | .pbExtract _ => false
  | .pbFlush _ => false
  | .updBool _ => true
  | .updU8 _ => true
  | .updU16 _ => true
  | .updU32 _ => true
  | .updU64 _ => true
  | .updU128 _ => true
  | .updI8 _ => true
  | .updI16 _ => true
  | .updI32 _ => true
  | .updI64 _ => true
  | .updI128 _ => true
  | .updStr _ => true
  | .updBytes _ => true

/-- R35 (h) without its clause on `COUNT` (which is `CursorCounts`): the live sponge absorbs, the cursor
agrees with its index, and `BUF` holds less than a chunk. -/
structure FacadeOk (s : State) : Prop where
  absorbing : s.sponge.mode = .absorbing
  cursor : s.tweak.cur = s.sponge.idx % s.params.rate
  remainder : s.buf.length < chunkSize s.cfg

/-- The clause of R35 (h) on `COUNT`: the cursor is the counter modulo `RATE`. -/
def CursorCounts (s : State) : Prop := s.tweak.cur = s.count.toNat % s.params.rate

/-! ### Legal headers (30_encoding.md R81) -/

/-- The 21 defined values of `OPC` (R81 (a)). -/
def definedOpcs : List Nat :=
  [0x00, 0x01, 0x02, 0x03, 0x04, 0x05, 0x10, 0x11, 0x20, 0x21, 0x30, 0x31, 0x40, 0x41, 0x42,
    0x50, 0x51, 0x52, 0x53, 0x54, 0x60]

/-- The values of `ARG` that R76 allows for a defined `OPC` (R81 (b)). -/
def argAllowed (opc arg : Nat) : Bool :=
  if opc = 0x01 then arg < 8
  else if opc = 0x30 then arg ≤ 4
  else if opc = 0x42 then arg ≤ 1
  else if opc = 0x50 ∨ opc = 0x60 then 1 ≤ arg && arg ≤ 13
  else arg == 0

/-- A header that is not illegal (R81): the fields are those of R71. -/
def headerLegal (h : Header) : Bool :=
  definedOpcs.contains (h.toNat % 256) && argAllowed (h.toNat % 256) (h.toNat / 256 % 256)

/-! ### The checks of a command (60_exceptions.md R265) -/

/-- The commands that execute without an instance are four (R270; 45_hasher.md R243). -/
def needsInstance : Instr → Bool
  | .status _ => false
  | .new _ _ _ _ => false
  | .reset _ => true
  | .digest _ => true
  | .finalize _ => true
  | .count _ => true
  | .permute _ => false
  | .compress _ => false
  | .spAbsorb _ => true
  | .spSqueeze _ => true
  | .dsAbsorb _ _ => true
  | .absorbDomain _ => true
  | .updBase _ => true
  | .updScalar _ => true
  | .updPoint _ => true
  | .updPointInf _ => true
  | .pushTag _ _ => true
  | .pushBytes _ => true
  | .pushVarint _ => true
  | .pbExtract _ => true
  | .pbFlush _ => true
  | .updBool _ => true
  | .updU8 _ => true
  | .updU16 _ => true
  | .updU32 _ => true
  | .updU64 _ => true
  | .updU128 _ => true
  | .updI8 _ => true
  | .updI16 _ => true
  | .updI32 _ => true
  | .updI64 _ => true
  | .updI128 _ => true
  | .updStr _ => true
  | .updBytes _ => true

/-- Check 5: `SCALAR_BITS > FIELD_BITS`, for `NEW` and `UPD_SCALAR`. -/
def scalarCheckFails (C : Params) : Instr → Bool
  | .new _ _ _ _ => fieldBits C < C.scalarBits
  | .updScalar _ => fieldBits C < C.scalarBits
  | _ => false

/-- Check 6: `WIDTH != 4`, for `COMPRESS`. -/
def widthCheckFails (C : Params) : Instr → Bool
  | .compress _ => C.width != 4
  | _ => false

/-- Check 7: `LEN` is not the value that 30_encoding.md R76 requires (R269). -/
def lenCheckFails (C : Params) : Instr → Bool
  | .status len => len != 0
  | .new _ _ ovr len => if ovr then len.toNat = 0 || 256 < len.toNat else len != 0
  | .reset len => len != 0
  | .digest len => len != 0
  | .finalize len => len != 0
  | .count len => len != 0
  | .permute w => w.length != C.width
  | .compress w => w.length != 3
  | .spAbsorb _ => false
  | .spSqueeze _ => false
  | .dsAbsorb _ _ => false
  | .absorbDomain _ => false
  | .updBase e => e.length != 1
  | .updScalar b => b.length != (C.scalarBits + 7) / 8
  | .updPoint e => e.length != 2
  | .updPointInf len => len != 0
  | .pushTag _ len => len != 0
  | .pushBytes _ => false
  | .pushVarint b => b.length != 8
  | .pbExtract len => len != 0
  | .pbFlush len => len != 0
  | .updBool b => b.length != 1
  | .updU8 b => b.length != 1
  | .updU16 b => b.length != 2
  | .updU32 b => b.length != 4
  | .updU64 b => b.length != 8
  | .updU128 b => b.length != 16
  | .updI8 b => b.length != 1
  | .updI16 b => b.length != 2
  | .updI32 b => b.length != 4
  | .updI64 b => b.length != 8
  | .updI128 b => b.length != 16
  | .updStr _ => false
  | .updBytes _ => false

/-- Check 8: a payload value is not as required: a field element `>= P`, a boolean byte above 1. -/
def valueCheckFails (C : Params) : Instr → Bool
  | .permute w => w.any (fun v => decide (C.P ≤ v))
  | .compress w => w.any (fun v => decide (C.P ≤ v))
  | .spAbsorb e => e.any (fun v => decide (C.P ≤ v))
  | .dsAbsorb _ e => e.any (fun v => decide (C.P ≤ v))
  | .updBase e => e.any (fun v => decide (C.P ≤ v))
  | .updPoint e => e.any (fun v => decide (C.P ≤ v))
  | .updBool b => b.any (fun v => decide (1 < v.toNat))
  | _ => false

/-- The bytes that a command pushes on `BUF` (44_packing_buffer.md R188 to R191), for the commands that
push. -/
def pushedBytes (C : Params) : Instr → Option (List Byte)
  | .pushTag k _ => some [tagAt C k]
  | .pushBytes b => some b
  | .pushVarint b => some (leb128 (leNat b))
  | .updBool b => some (tagAt C .bool :: b)
  | .updU8 b => some (tagAt C .u8 :: b)
  | .updU16 b => some (tagAt C .u16 :: b)
  | .updU32 b => some (tagAt C .u32 :: b)
  | .updU64 b => some (tagAt C .u64 :: b)
  | .updU128 b => some (tagAt C .u128 :: b)
  | .updI8 b => some (tagAt C .i8 :: b)
  | .updI16 b => some (tagAt C .i16 :: b)
  | .updI32 b => some (tagAt C .i32 :: b)
  | .updI64 b => some (tagAt C .i64 :: b)
  | .updI128 b => some (tagAt C .i128 :: b)
  | .updStr b => some (tagAt C .str :: (leb128 b.length ++ b))
  | .updBytes b => some (tagAt C .bytes :: (leb128 b.length ++ b))
  | _ => none

/-- The number of field elements that a command absorbs through `ds_absorb` when it completes
(42_domain_separation.md R159; 43_field_adapter.md R171 to R175; 44_packing_buffer.md R195, R209, R210). -/
def batchSize (s : State) (i : Instr) : Nat :=
  match i with
  | .dsAbsorb _ e => e.length
  | .updBase _ => 1
  | .updScalar _ => 1
  | .updPoint _ => 2
  | .updPointInf _ => 1
  | .pbExtract _ => s.buf.length / chunkSize s.cfg
  | .pbFlush _ => (flushList s.params s.cfg s.buf).length
  | .updBool b => packed b.length
  | .updU8 b => packed b.length
  | .updU16 b => packed b.length
  | .updU32 b => packed b.length
  | .updU64 b => packed b.length
  | .updU128 b => packed b.length
  | .updI8 b => packed b.length
  | .updI16 b => packed b.length
  | .updI32 b => packed b.length
  | .updI64 b => packed b.length
  | .updI128 b => packed b.length
  | .updStr b => packed ((leb128 b.length).length + b.length)
  | .updBytes b => packed ((leb128 b.length).length + b.length)
  | .status _ => 0
  | .new _ _ _ _ => 0
  | .reset _ => 0
  | .digest _ => 0
  | .finalize _ => 0
  | .count _ => 0
  | .permute _ => 0
  | .compress _ => 0
  | .spAbsorb _ => 0
  | .spSqueeze _ => 0
  | .absorbDomain _ => 0
  | .pushTag _ _ => 0
  | .pushBytes _ => 0
  | .pushVarint _ => 0
where
  /-- `floor((|BUF| + |s|) / CHUNK)` of R195 for a tag and `n` bytes after it. -/
  packed (n : Nat) : Nat := (s.buf.length + (1 + n)) / chunkSize s.cfg

/-- Check 9: the push would exceed `BUF_CAP`. -/
def capCheckFails (s : State) (i : Instr) : Bool :=
  match pushedBytes s.params i, s.params.bufCap with
  | some b, some cap => cap < s.buf.length + b.length
  | _, _ => false

/-- The first of the checks 4 to 9 of R265 that fails, by its code; `none` when all pass. The checks 1 to
3 (`FAULT`, `OPC`, `ARG`) come before. -/
def firstError (i : Instr) (s : State) : Option Status :=
  if needsInstance i && !s.live then some .eNotLive
  else if scalarCheckFails s.params i then some .eScalarWidth
  else if widthCheckFails s.params i then some .eWidth
  else if lenCheckFails s.params i then some .eOperand
  else if valueCheckFails s.params i then some .eOperand
  else if capCheckFails s i then some .eBufFull
  else none

/-! ### Sequences of commands -/

/-- The commands of a list one after the other, each completely (20_memory.md R62). -/
def runCommands : List Instr → State → Host.Outcome State Fault Refusal
  | [], s => .next s
  | i :: is, s =>
    match exec i s with
    | .next t => runCommands is t
    | .fault f => .fault f
    | .refused r => .refused r

end Sys2Proof.Machine
end

