-- ==== Sys2Proof/Certificates/Slice0/Obligations.lean ====
section
/-! DEFINITION. The statements about the model, each from the rules of the spec that its docstring and
OBLIGATIONS.json name. -/

open Sys2Proof Sys2Proof.Machine

/-! ### Encoding -/

/-- 00_scope.md R14: `LE` is the sum of `b[i] * 256^i`, `bytes_le` is its inverse on `n` bytes, and
a byte string becomes a field element by `LE(b) mod P`. -/
def Obligations.LittleEndianBytes : Prop :=
  (∀ b : List Byte, leNat b = ∑ i ∈ Finset.range b.length, (b.getD i 0).toNat * 256 ^ i)
  ∧ (∀ v n : Nat, v < 256 ^ n → (bytesLE v n).length = n ∧ leNat (bytesLE v n) = v)
  ∧ (∀ b : List Byte, bytesLE (leNat b) b.length = b)
  ∧ (∀ (P : Nat) (b : List Byte), chunkElem P b = leNat b % P)

/-- 30_encoding.md R71, R85, R88: the fields of the header `OPC + 256 * ARG + 65536 * LEN`; its four
bytes, least significant first, are `OPC`, `ARG` and the two bytes of `LEN`, and they are the first
four bytes of every encoded command. -/
def Obligations.HeaderLayout : Prop :=
  (∀ (opc arg : Byte) (len : Len),
    headerOpc (mkHeader opc arg len) = opc ∧ headerArg (mkHeader opc arg len) = arg
      ∧ headerLen (mkHeader opc arg len) = len
      ∧ (mkHeader opc arg len).toNat = opc.toNat + 256 * arg.toNat + 65536 * len.toNat)
  ∧ (∀ h : Header, (headerOpc h).toNat = h.toNat % 256
      ∧ (headerArg h).toNat = h.toNat / 256 % 256 ∧ (headerLen h).toNat = h.toNat / 65536)
  ∧ (∀ h : Header, bytesLE h.toNat 4 =
      [headerOpc h, headerArg h, BitVec.ofNat 8 (headerLen h).toNat,
        BitVec.ofNat 8 ((headerLen h).toNat / 256)])
  ∧ (∀ (fe : Nat) (i : Instr), (encode fe i).take 4 = bytesLE (encodeHeader i).toNat 4)

/-- 30_encoding.md R71 to R80: for every well-formed command, with every operand, decoding its
encoding gives it back, consumes exactly its bytes and leaves the rest of the stream. -/
def Obligations.DecodeOfEncodeIsTheCommand : Prop :=
  ∀ (fe : Nat) (i : Instr) (rest : List Byte), i.wf fe = true →
    (decode fe (encode fe i ++ rest)).result = .ok i
    ∧ (decode fe (encode fe i ++ rest)).rest = rest
    ∧ (decode fe (encode fe i ++ rest)).complete = true

/-- 30_encoding.md R71 to R80, the other direction: whatever complete bytes decode to a command, the
command is well-formed and its encoding is exactly the bytes consumed. -/
def Obligations.EncodeOfDecodeIsTheBytes : Prop :=
  ∀ (fe : Nat) (bytes : List Byte) (i : Instr),
    (decode fe bytes).result = .ok i → (decode fe bytes).complete = true →
    i.wf fe = true ∧ encode fe i ++ (decode fe bytes).rest = bytes

/-- One header of the table at the end of 95_test_vectors.md section 4.7 for each family, written
out byte by byte, with payload bytes of the form and length of R72 where it announces any (`FE_BYTES
= 4`). -/
def Obligations.SampleWordsDecode : Prop :=
  (decode 4 [0x01, 0x07, 0x09, 0x00]).result = .ok (.new .circuitFriendly .lengthPrefix true 9)
  ∧ (decode 4 [0x11, 0x00, 0x03, 0x00, 0x02, 0x01, 0x00, 0x00, 0x05, 0x00, 0x00, 0x00,
      0x00, 0x00, 0x00, 0x80]).result = .ok (.compress [258, 5, 2147483648])
  ∧ (decode 4 [0x21, 0x00, 0x03, 0x00]).result = .ok (.spSqueeze 3)
  ∧ (decode 4 [0x30, 0x01, 0x02, 0x00, 0x05, 0x00, 0x00, 0x00, 0x00, 0x01, 0x00, 0x00]).result =
      .ok (.dsAbsorb .scalar [5, 256])
  ∧ (decode 4 [0x42, 0x01, 0x00, 0x00]).result = .ok (.updPointInf 0)
  ∧ (decode 4 [0x60, 0x03, 0x02, 0x00, 0x02, 0x01]).result = .ok (.updU16 [0x02, 0x01])

/-- 30_encoding.md R81: a header with an undefined `OPC` or an `ARG` not allowed raises `E_ILLEGAL`,
and nothing but `FAULT` and `ERR` changes; while `FAULT = 1` it answers `E_FAULTED` instead, for
that check comes first (60_exceptions.md R265, R273), and nothing changes. In both cases the header
and the payload it announces are consumed. A header that R81 does not call illegal is a command,
whatever its `LEN`. -/
def Obligations.IllegalHeadersRaiseIllegal : Prop :=
  ∀ (s : State) (h : Header) (tail : List Byte),
    s.rst = false → s.din = bytesLE h.toNat 4 ++ tail →
    payloadBytes (feBytes s.params) h ≤ tail.length →
    (headerLegal h = false → s.fault = false →
      step s = .next { s with
        fault := true
        err := 0x01
        din := tail.drop (payloadBytes (feBytes s.params) h)
        dout := s.dout ++ [0x01] })
    ∧ (headerLegal h = false → s.fault = true →
      step s = .next { s with
        din := tail.drop (payloadBytes (feBytes s.params) h)
        dout := s.dout ++ [0x08] })
    ∧ (headerLegal h = true → ∃ i, (fetch s).result = .ok i)

/-- 30_encoding.md R72: the payload a header announces, by its form, and 0 for an undefined `OPC`.
-/
def Obligations.PayloadLengthByForm : Prop :=
  ∀ (fe : Nat) (h : Header),
    let opc := h.toNat % 256
    let len := h.toNat / 65536
    payloadBytes fe h =
      if opc ∈ [0x10, 0x11, 0x20, 0x30, 0x40] ∨ (opc = 0x42 ∧ h.toNat / 256 % 2 = 0) then len * fe
      else if opc ∈ [0x31, 0x41, 0x51, 0x52, 0x60] then len
      else 0

/-! ### Steps, reset and the port -/

/-- A step runs the decoded command: when the bytes at the front of `DIN` decode to a command and
its whole payload is there, the step is `exec` of it on the state with those bytes consumed (R70,
R72). -/
def Obligations.StepRunsTheDecodedCommand : Prop :=
  ∀ (s : State) (i : Instr) (rest : List Byte), s.rst = false →
    (decode (feBytes s.params) s.din).result = .ok i →
    (decode (feBytes s.params) s.din).complete = true →
    (decode (feBytes s.params) s.din).rest = rest →
    step s = exec i { s with din := rest }

/-- The model's choice (log entry 4): with no whole command on `DIN` the block waits, unchanged. -/
def Obligations.StepWaitsForAWholeCommand : Prop :=
  ∀ s : State, s.rst = false → (decode (feBytes s.params) s.din).complete = false →
    step s = .next s

/-- 70_reset_and_hazards.md R290 with the parameter check of R295: every register after the event
`RST`. -/
def Obligations.HardwareResetValues : Prop :=
  ∀ s : State, s.rst = true → ∃ t, step s = .next t
    ∧ t.sponge.lanes = List.replicate s.params.width 0 ∧ t.sponge.mode = .absorbing
    ∧ t.sponge.idx = 0
    ∧ t.base.lanes = List.replicate s.params.width 0 ∧ t.base.mode = .absorbing ∧ t.base.idx = 0
    ∧ t.tweak.cur = 0 ∧ t.tweak.present = false
    ∧ t.tweak.vec = List.replicate s.params.rate 0 ∧ t.tweak.rem = 0 ∧ t.tweak.align = false
    ∧ t.count = 0 ∧ t.buf = []
    ∧ t.cfg.pk = .byteEfficient ∧ t.cfg.pad = .zero ∧ t.cfg.maxb = maxbDefault s.params
    ∧ t.live = false
    ∧ (paramsWF s.params = true → t.fault = false ∧ t.err = 0x00)
    ∧ (paramsWF s.params = false → t.fault = true ∧ t.err = 0x04)
    ∧ t.params = s.params

/-- The model's choice (log entry 2): the event `RST` is acted on once, drops unread `DIN` and
leaves what was sent on `DOUT`; with nothing sent it leaves `State.reset`. -/
def Obligations.ResetStateIsHardwareReset : Prop :=
  ∀ s : State, s.rst = true →
    (∃ t, step s = .next t ∧ t.din = [] ∧ t.dout = s.dout ∧ t.rst = false)
    ∧ (s.params = Config.params → s.dout = [] → step s = .next State.reset)

/-- 00_scope.md R9: `ParamsWF`, written out as the model reads it (log entry 11): every table that
is given is checked for canonical entries, also one the schedule does not use; that `M4` is present
means four rows of four entries; `TAG` has 13 entries. -/
def Obligations.ParamsCheckIsTheListOfConditions : Prop :=
  ∀ C : Params, paramsWF C = true ↔
    (C.rc.length = C.rf + C.rp ∧ (∀ row ∈ C.rc, row.length = C.width)
    ∧ (C.schedule = .cheap → C.diag.length = C.width)
    ∧ (C.schedule = .classic → C.mds.length = C.width ∧ ∀ row ∈ C.mds, row.length = C.width)
    ∧ C.width = C.rate + C.capacity
    ∧ 1 ≤ C.rate
    ∧ Even C.rf
    ∧ (C.d = 3 ∨ C.d = 5 ∨ C.d = 7)
    ∧ (C.schedule = .cheap →
        (C.width = 2 ∨ C.width = 3 ∨ C.width = 4 ∨ (4 ∣ C.width ∧ 8 ≤ C.width))
        ∧ (4 ∣ C.width → C.m4.length = 4 ∧ ∀ row ∈ C.m4, row.length = 4))
    ∧ (∀ row ∈ C.rc, ∀ v ∈ row, v < C.P) ∧ (∀ v ∈ C.diag, v < C.P)
    ∧ (∀ row ∈ C.mds, ∀ v ∈ row, v < C.P) ∧ (∀ row ∈ C.m4, ∀ v ∈ row, v < C.P)
    ∧ (∀ row ∈ C.classConst, ∀ v ∈ row, v < C.P)
    ∧ (C.classConst.length = 5 ∧ ∀ row ∈ C.classConst, row.length = C.rate)
    ∧ (C.tag.length = 13 ∧ ∀ k k' : Kind, tagAt C k = tagAt C k' → k = k'))

/-- 60_exceptions.md R266: a block whose parameter set is malformed leaves hardware reset faulted
with `E_PARAMS`; every command but `STATUS` answers `E_FAULTED`, and `STATUS` shows the code. -/
def Obligations.MalformedParamsFaultTheBlock : Prop :=
  ∀ C : Params, paramsWF C = false →
    (State.resetWith C).fault = true ∧ (State.resetWith C).err = 0x04
    ∧ exec (.status 0) (State.resetWith C) =
        .next { State.resetWith C with dout := [0x00, 0x02, 0x04] }
    ∧ ∀ i : Instr, i ≠ .status 0 →
        exec i (State.resetWith C) = .next { State.resetWith C with dout := [0x08] }

/-! ### Errors -/

/-- 60_exceptions.md R263, R273: while `FAULT = 1` every command but `STATUS` answers `E_FAULTED`
and changes nothing, not even `ERR`; `STATUS` is answered, and with a `LEN` other than 0 it is not
(45_hasher.md R241). -/
def Obligations.FaultIsSticky : Prop :=
  ∀ (i : Instr) (s : State), s.fault = true →
    (i ≠ .status 0 → exec i s = .next { s with dout := s.dout ++ [0x08] })
    ∧ exec (.status 0) s =
        .next { s with dout := s.dout ++ [0x00, (if s.live then 0x03 else 0x02), s.err] }

/-- 45_hasher.md R241: `STATUS` at the port, with its `ARG`, its `LEN` and `FAULT` in every
combination. -/
def Obligations.StatusAtThePort : Prop :=
  ∀ (s : State) (arg : Byte) (len : Len) (tail : List Byte), s.rst = false →
    s.din = bytesLE (mkHeader 0x00 arg len).toNat 4 ++ tail →
    step s = .next
      (if s.fault = true ∧ (arg ≠ 0 ∨ len ≠ 0) then
        { s with din := tail, dout := s.dout ++ [0x08] }
      else if arg ≠ 0 then
        { s with din := tail, fault := true, err := 0x01, dout := s.dout ++ [0x01] }
      else if len ≠ 0 then
        { s with din := tail, fault := true, err := 0x02, dout := s.dout ++ [0x02] }
      else
        { s with
          din := tail
          dout := s.dout ++
            [0x00, BitVec.ofNat 8 (s.live.toNat + 2 * s.fault.toNat), s.err] })

/-- 60_exceptions.md R270 with 45_hasher.md R243: without an instance every command but `STATUS`,
`NEW`, `PERMUTE` and `COMPRESS` raises `E_NOT_LIVE`, and these four never do. -/
def Obligations.CommandsThatNeedAnInstance : Prop :=
  ∀ (i : Instr) (s : State), s.fault = false → s.live = false →
    (needsInstance i = true →
      exec i s = .next { s with fault := true, err := 0x03, dout := s.dout ++ [0x03] })
    ∧ (needsInstance i = false → ∃ t st data, exec i s = .next t
        ∧ t.dout = s.dout ++ statusCode st :: data ∧ st ≠ .eNotLive)

/-- 60_exceptions.md R262: errors are precise. Every command answers with exactly one response: `OK`
with `FAULT` and `ERR` as before; or a raised code, the status byte alone, and no state changed but
`FAULT` and `ERR`, which holds the code; or `E_FAULTED`, and no state changed at all. -/
def Obligations.ErrorsArePrecise : Prop :=
  ∀ (i : Instr) (s : State), ∃ t, exec i s = .next t ∧
    ((∃ data, t.dout = s.dout ++ 0x00 :: data ∧ t.fault = s.fault ∧ t.err = s.err)
    ∨ (∃ st, st ≠ .ok ∧ st ≠ .eFaulted ∧ s.fault = false
        ∧ t = { s with fault := true, err := statusCode st, dout := s.dout ++ [statusCode st] })
    ∨ (s.fault = true ∧ t = { s with dout := s.dout ++ [0x08] }))

/-- 60_exceptions.md R265, checks 4 to 9, and R274: the first check of the table that fails decides
the code, and a command that passes all of them completes with `OK`. -/
def Obligations.FirstFailingCheckDecides : Prop :=
  ∀ (i : Instr) (s : State), s.fault = false →
    (∀ e, firstError i s = some e →
      exec i s = .next { s with fault := true, err := statusCode e, dout := s.dout ++ [statusCode e] })
    ∧ (firstError i s = none →
      ∃ t data, exec i s = .next t ∧ t.dout = s.dout ++ 0x00 :: data ∧ t.fault = false)

/-- 60_exceptions.md R264: only hardware reset clears `FAULT` and `ERR`. It also ends the instance;
and if the cause is in the configuration the fault returns, `E_PARAMS` at once and `E_SCALAR_WIDTH`
at the next `NEW`. -/
def Obligations.OnlyHardwareResetClearsFault : Prop :=
  (∀ s t : State, s.rst = false → s.fault = true → step s = .next t →
    t.fault = true ∧ t.err = s.err)
  ∧ (∀ s : State, s.rst = true → ∃ t, step s = .next t ∧ t.live = false
      ∧ (paramsWF s.params = true → t.fault = false ∧ t.err = 0)
      ∧ (paramsWF s.params = false → t.fault = true ∧ t.err = statusCode .eParams)
      ∧ (paramsWF s.params = true → fieldBits s.params < s.params.scalarBits →
          ∀ pk pad ovr len, exec (.new pk pad ovr len) t =
            .next { t with fault := true, err := 0x05, dout := t.dout ++ [0x05] }))

/-- 20_memory.md R61: no step writes the parameter store. -/
def Obligations.ParameterStoreIsReadOnly : Prop :=
  ∀ s t : State, step s = .next t → t.params = s.params

/-! ### The invariant -/

/-- 10_state.md R35 (a) to (g): every step keeps the invariant, from every state that has it. The
spec marks R35 as its own inference ("[derived: from the rules cited in each line]"). -/
def Obligations.EveryStepKeepsTheInvariant : Prop :=
  ∀ s t : State, s.Inv → step s = .next t → t.Inv

/-- 10_state.md R35 ("[derived: from the rules cited in each line]"): the state after hardware reset
has the invariant, for every parameter set. -/
def Obligations.ResetHasTheInvariant : Prop :=
  State.reset.Inv ∧ ∀ C : Params, (State.resetWith C).Inv

/-- 10_state.md R35 (h) ("[derived: from the rules cited in each line]"): `NEW` establishes the
façade's invariant and the façade's commands keep it; so they do its clause on `COUNT`, that the
cursor is `COUNT` modulo `RATE`, as long as the elements a command absorbs do not wrap `COUNT`, or
when `RATE` divides `2^64`. -/
def Obligations.FacadeCommandsKeepTheFacadeInvariant : Prop :=
  (∀ (pk : PackMode) (pad : PadPolicy) (ovr : Bool) (len : Len) (s t : State), s.Inv →
    exec (.new pk pad ovr len) s = .next t → s.fault = false → t.fault = false →
    FacadeOk t ∧ CursorCounts t)
  ∧ (∀ (i : Instr) (s t : State), s.Inv → FacadeOk s → facadeCommand i = true →
    exec i s = .next t →
    FacadeOk t
    ∧ (CursorCounts s → (s.count.toNat + batchSize s i < 2 ^ 64 ∨ s.params.rate ∣ 2 ^ 64) →
      CursorCounts t))

/-! ### The permutation engine -/

/-- 40_permutation.md R101: the S-box is the power with the degree `D`. For the degrees 3, 5 and 7,
which `ParamsWF` admits, this is the value of the chains of R102; for any other degree it is the
model's choice (log entry 8), which no permutation meets. -/
def Obligations.SboxIsThePower : Prop :=
  ∀ (C : Params) (x : Nat), sbox C x = x ^ C.d % C.P

/-- 40_permutation.md R104: the external mix of widths 2 and 3. -/
def Obligations.ExternalMixOfSmallWidths : Prop :=
  ∀ (C : Params) (x : List Nat), (C.width = 2 ∨ C.width = 3) → x.length = C.width →
    (extMix C x).length = C.width
    ∧ ∀ i, i < C.width → (extMix C x).getD i 0 = (x.getD i 0 + x.sum) % C.P

/-- 40_permutation.md R105 and R106: the external mix of width 4 and of widths `4 k`, `k >= 2`. -/
def Obligations.ExternalMixOfBlocks : Prop :=
  ∀ (C : Params) (x : List Nat) (i : Nat), i < C.width →
    let z : Nat → Nat := fun a =>
      ∑ j ∈ Finset.range 4, (C.m4.getD (a % 4) []).getD j 0 * x.getD (4 * (a / 4) + j) 0
    (C.width = 4 → (extMix C x).getD i 0 = z i % C.P)
    ∧ (C.width % 4 = 0 → 8 ≤ C.width →
        (extMix C x).getD i 0 =
          (z i + ∑ j ∈ Finset.range (C.width / 4), z (4 * j + i % 4)) % C.P)

/-- 40_permutation.md R108: the internal mix. -/
def Obligations.InternalMix : Prop :=
  ∀ (C : Params) (x : List Nat), x.length = C.width →
    (intMix C x).length = C.width
    ∧ ∀ i, i < C.width →
      (intMix C x).getD i 0 = (x.sum + C.diag.getD i 0 * x.getD i 0) % C.P

/-- 40_permutation.md R110, R111, R112, R113: the cheap schedule as one sequence of rounds. Before
round 0 stands one external mix; a full round adds its constant row, applies the S-box to every lane
and mixes externally; a partial round does so on lane 0 only, with entry 0 of its row, and mixes
internally. -/
def Obligations.CheapScheduleRoundByRound : Prop :=
  ∀ (C : Params) (x : List Nat) (st : Nat → List Nat), C.schedule = .cheap → paramsWF C = true →
    st 0 = extMix C x →
    (∀ r, st (r + 1) =
      if r < C.rf / 2 ∨ C.rf / 2 + C.rp ≤ r then
        extMix C ((List.range C.width).map (fun i =>
          (((st r).getD i 0 + (C.rc.getD r []).getD i 0) % C.P) ^ C.d % C.P))
      else
        intMix C ((List.range C.width).map (fun i =>
          if i = 0 then (((st r).getD 0 0 + (C.rc.getD r []).getD 0 0) % C.P) ^ C.d % C.P
          else (st r).getD i 0))) →
    permute C x = st (C.rf + C.rp)

/-- 40_permutation.md R114: the classic schedule as one sequence of rounds, without a mix before
round 0; every round adds its whole constant row and ends with the full matrix. The spec supplies
this structure itself ("[from general knowledge, not in source]"), and the model follows it (log
entry 6). -/
def Obligations.ClassicScheduleRoundByRound : Prop :=
  ∀ (C : Params) (x : List Nat) (st : Nat → List Nat), C.schedule = .classic → paramsWF C = true →
    st 0 = x →
    (∀ r, st (r + 1) =
      (List.range C.width).map (fun i =>
        (∑ j ∈ Finset.range C.width, (C.mds.getD i []).getD j 0 *
          (if r < C.rf / 2 ∨ C.rf / 2 + C.rp ≤ r ∨ j = 0 then
            (((st r).getD j 0 + (C.rc.getD r []).getD j 0) % C.P) ^ C.d % C.P
          else ((st r).getD j 0 + (C.rc.getD r []).getD j 0) % C.P)) % C.P)) →
    permute C x = st (C.rf + C.rp)

/-- 40_permutation.md R116 ("[derived: from rules R113, R114, R115]"): `permute` is the function of
the schedule and takes vectors of `WIDTH` canonical field elements to such vectors. -/
def Obligations.PermuteStaysInTheField : Prop :=
  (∀ (C : Params) (x : List Nat), (C.schedule = .cheap → permute C x = permuteCheap C x)
    ∧ (C.schedule = .classic → permute C x = permuteClassic C x))
  ∧ ∀ (C : Params) (x : List Nat), paramsWF C = true → LaneVector C x → LaneVector C (permute C x)

/-- 40_permutation.md R120 ("[derived: from rules R101 to R114]"): `permute` is a bijection on the
vectors of `WIDTH` canonical elements, provided that `gcd(D, P - 1) = 1` for a prime `P` and that
the mixing layers of the schedule are injective. -/
def Obligations.PermuteIsABijection : Prop :=
  ∀ C : Params, paramsWF C = true → Nat.Prime C.P → Nat.Coprime C.d (C.P - 1) →
    (C.schedule = .cheap → ∀ x y, LaneVector C x → LaneVector C y →
      (extMix C x = extMix C y → x = y) ∧ (intMix C x = intMix C y → x = y)) →
    (C.schedule = .classic → ∀ x y, LaneVector C x → LaneVector C y →
      mdsMix C x = mdsMix C y → x = y) →
    (∀ x y, LaneVector C x → LaneVector C y → permute C x = permute C y → x = y)
    ∧ (∀ y, LaneVector C y → ∃ x, LaneVector C x ∧ permute C x = y)

/-- 40_permutation.md R118, R119: `PERMUTE` and `COMPRESS` answer their result and change no state,
with an instance or without. -/
def Obligations.PermuteAndCompressAnswer : Prop :=
  (∀ (w : List Nat) (s : State), s.fault = false → LaneVector s.params w →
    exec (.permute w) s =
      .next { s with dout := s.dout ++ 0x00 :: elemBytes (feBytes s.params) (permute s.params w) })
  ∧ (∀ (a b c : Nat) (s : State), s.fault = false → s.params.width = 4 →
    a < s.params.P → b < s.params.P → c < s.params.P →
    exec (.compress [a, b, c]) s =
      .next { s with dout := s.dout ++
        0x00 :: bytesLE ((permute s.params [a, b, c, 0]).getD 0 0) (feBytes s.params) })

/-! ### The duplex sponge -/

/-- 41_sponge.md R131, R133: `sp_absorb` one element at a time. Absorbing one more element starts a
fresh phase at rate lane 0 when squeezing (with a permutation if `SQZ_ABS_PERMUTE`), permutes first
when the block is full, and adds the element to the next rate lane. -/
def Obligations.AbsorbIsElementwise : Prop :=
  ∀ (C : Params) (sp : Sponge) (e : List Nat) (v : Nat), 1 ≤ C.rate → sp.idx ≤ C.rate →
    let q := spAbsorb C sp e
    let lanes := if (q.mode = .squeezing ∧ C.sqzAbsPermute = true)
        ∨ (q.mode = .absorbing ∧ q.idx = C.rate) then permute C q.lanes else q.lanes
    let i := if q.mode = .squeezing ∨ q.idx = C.rate then 0 else q.idx
    spAbsorb C sp (e ++ [v]) =
      { lanes := lanes.set (C.capacity + i) ((lanes.getD (C.capacity + i) 0 + v) % C.P)
        mode := .absorbing
        idx := i + 1 }

/-- 41_sponge.md R134: `sp_squeeze` one element at a time: one more element is the next unread rate
lane, after a permutation when the rate lanes are used up. -/
def Obligations.SqueezeIsElementwise : Prop :=
  ∀ (C : Params) (sp : Sponge) (n : Nat), 1 ≤ C.rate → sp.idx ≤ C.rate →
    let q := (spSqueeze C sp n).2
    let lanes := if q.idx = C.rate then permute C q.lanes else q.lanes
    let i := if q.idx = C.rate then 0 else q.idx
    spSqueeze C sp (n + 1) =
      ((spSqueeze C sp n).1 ++ [lanes.getD (C.capacity + i) 0],
        { lanes := lanes, mode := .squeezing, idx := i + 1 })

/-- 41_sponge.md R139 ("[derived: from rules R131, R132, R134, R135]"), the splitting law. -/
def Obligations.SpongeSplittingLaw : Prop :=
  (∀ (C : Params) (sp : Sponge) (a b : List Nat), 1 ≤ C.rate → sp.idx ≤ C.rate →
    spAbsorb C sp (a ++ b) = spAbsorb C (spAbsorb C sp a) b)
  ∧ (∀ (C : Params) (sp : Sponge) (a b : Nat), 1 ≤ C.rate → sp.idx ≤ C.rate →
    (spSqueeze C sp (a + b)).1 =
      (spSqueeze C sp a).1 ++ (spSqueeze C (spSqueeze C sp a).2 b).1
    ∧ (spSqueeze C sp (a + b)).2 = (spSqueeze C (spSqueeze C sp a).2 b).2)

/-- 41_sponge.md R132: absorbing nothing changes nothing. What squeezing nothing does is the spec's
own inference in R135 ("[derived: from rule R134]"): one permutation when absorbing, else nothing.
-/
def Obligations.EmptyAbsorbAndEmptySqueeze : Prop :=
  ∀ (C : Params) (sp : Sponge),
    spAbsorb C sp [] = sp
    ∧ (sp.mode = .absorbing → spSqueeze C sp 0 = ([], ⟨permute C sp.lanes, .squeezing, 0⟩))
    ∧ (sp.mode = .squeezing → spSqueeze C sp 0 = ([], sp))

/-- 41_sponge.md R140 ("[derived: from rules R131, R132, R134, R135]"): mode and index after a
non-empty absorb or squeeze. -/
def Obligations.SpongeTransitions : Prop :=
  ∀ (C : Params) (sp : Sponge) (e : List Nat), 1 ≤ C.rate → sp.idx ≤ C.rate → e ≠ [] →
    (spAbsorb C sp e).mode = .absorbing
    ∧ (sp.mode = .absorbing → sp.idx < C.rate →
        (spAbsorb C sp e).idx = (sp.idx + e.length - 1) % C.rate + 1)
    ∧ (sp.mode = .absorbing → sp.idx = C.rate →
        (spAbsorb C sp e).idx = (e.length - 1) % C.rate + 1)
    ∧ (sp.mode = .squeezing → (spAbsorb C sp e).idx = (e.length - 1) % C.rate + 1)
    ∧ (spSqueeze C sp e.length).2.mode = .squeezing
    ∧ (sp.mode = .absorbing →
        (spSqueeze C sp e.length).2.idx = (e.length - 1) % C.rate + 1)
    ∧ (sp.mode = .squeezing →
        (spSqueeze C sp e.length).2.idx = (sp.idx + e.length - 1) % C.rate + 1)

/-- 41_sponge.md R136 ("[derived: from rules R131, R134]"): within one block an absorb touches only
the rate lanes `CAPACITY + IDX ..` it adds to, and a squeeze reads only such lanes and changes none;
capacity lanes are not touched and not read. -/
def Obligations.CapacityLanesAreHidden : Prop :=
  ∀ (C : Params) (sp : Sponge) (e : List Nat), sp.lanes.length = C.capacity + C.rate →
    (sp.mode = .absorbing → sp.idx < C.rate → sp.idx + e.length ≤ C.rate → ∀ l,
      (spAbsorb C sp e).lanes.getD l 0 =
        if C.capacity + sp.idx ≤ l ∧ l < C.capacity + sp.idx + e.length then
          (sp.lanes.getD l 0 + e.getD (l - (C.capacity + sp.idx)) 0) % C.P
        else sp.lanes.getD l 0)
    ∧ (sp.mode = .squeezing → ∀ n, sp.idx + n ≤ C.rate →
      spSqueeze C sp n =
        ((sp.lanes.drop (C.capacity + sp.idx)).take n, { sp with idx := sp.idx + n }))

/-- 41_sponge.md R137, R138: `SP_ABSORB` and `SP_SQUEEZE` act on the live sponge alone. -/
def Obligations.SpongeCommandsComplete : Prop :=
  ∀ s : State, s.Ready →
    (∀ e : List Nat, Canonical s.params.P e → exec (.spAbsorb e) s =
      .next { s with sponge := spAbsorb s.params s.sponge e, dout := s.dout ++ [0x00] })
    ∧ (∀ len : Len, exec (.spSqueeze len) s =
      .next { s with
        sponge := (spSqueeze s.params s.sponge len.toNat).2
        dout := s.dout ++ 0x00 ::
          elemBytes (feBytes s.params) (spSqueeze s.params s.sponge len.toNat).1 })

/-! ### Domain separation -/

/-- 42_domain_separation.md R153: with no pending tweak every element gets the constant of its class
and of the cursor's lane, and the cursor advances by the batch size. -/
def Obligations.ClassConstantsWithoutTweak : Prop :=
  ∀ (C : Params) (c : ClassCode) (t : Tweak) (e : List Nat), t.present = false →
    (dsTransform C c t e).1.length = e.length
    ∧ (∀ p, p < e.length → (dsTransform C c t e).1.getD p 0 =
        (e.getD p 0 + (C.classConst.getD (classRow c) []).getD ((t.cur + p) % C.rate) 0) % C.P)
    ∧ (dsTransform C c t e).2 = { t with cur := (t.cur + e.length) % C.rate }

/-- 42_domain_separation.md R152, R154 ("[derived: from rule R152]"): a freshly installed tweak
waits for the next lane 0, at position `p0`, and is then added to `RATE` elements, once on each
lane; then it clears itself. With too few elements it stays pending, in part or in whole. A partly
consumed tweak with `PD_REM` lanes left is added from the first element on, to the next `PD_REM`
elements, each on its lane; then it clears itself. -/
def Obligations.PendingTweakAffectsOneBlock : Prop :=
  (∀ (C : Params) (c : ClassCode) (t : Tweak) (e : List Nat), 1 ≤ C.rate → t.cur < C.rate →
    t.present = true → t.align = true → t.rem = C.rate →
    let p0 := (C.rate - t.cur) % C.rate
    let r := dsTransform C c t e
    let cur' := (t.cur + e.length) % C.rate
    r.1.length = e.length
    ∧ (∀ p, p < e.length → r.1.getD p 0 =
        (e.getD p 0 + (C.classConst.getD (classRow c) []).getD ((t.cur + p) % C.rate) 0
          + if p0 ≤ p ∧ p < p0 + C.rate then t.vec.getD (p - p0) 0 else 0) % C.P)
    ∧ r.2 =
      if e.length ≤ p0 then { t with cur := cur' }
      else if e.length < p0 + C.rate then
        { t with cur := cur', rem := C.rate - (e.length - p0), align := false }
      else
        { cur := cur', present := false, vec := List.replicate C.rate 0, rem := 0, align := false })
  ∧ (∀ (C : Params) (c : ClassCode) (t : Tweak) (e : List Nat),
    t.present = true → t.align = false → 1 ≤ t.rem →
    let r := dsTransform C c t e
    let cur' := (t.cur + e.length) % C.rate
    r.1.length = e.length
    ∧ (∀ p, p < e.length → r.1.getD p 0 =
        (e.getD p 0 + (C.classConst.getD (classRow c) []).getD ((t.cur + p) % C.rate) 0
          + if p < t.rem then t.vec.getD ((t.cur + p) % C.rate) 0 else 0) % C.P)
    ∧ r.2 =
      if e.length < t.rem then { t with cur := cur', rem := t.rem - e.length }
      else
        { cur := cur', present := false, vec := List.replicate C.rate 0, rem := 0, align := false })

/-- 42_domain_separation.md R155, R159: `ds_absorb` transforms on the live registers, counts the
batch modulo `2^64` and absorbs it into the live sponge; nothing else changes; `DS_ABSORB` is one
such batch of its class. -/
def Obligations.DsAbsorbCompletes : Prop :=
  ∀ (c : ClassCode) (e : List Nat) (s : State),
    dsAbsorb c e s = { s with
      tweak := (dsTransform s.params c s.tweak e).2
      count := BitVec.ofNat 64 (s.count.toNat + e.length)
      sponge := spAbsorb s.params s.sponge (dsTransform s.params c s.tweak e).1 }
    ∧ (s.Ready → Canonical s.params.P e →
      exec (.dsAbsorb c e) s = .next { dsAbsorb c e s with dout := s.dout ++ [0x00] })

/-- 42_domain_separation.md R161, the splitting law ("[derived: from rules R152, R155 and
41_sponge.md rule R139]"): a batch in two parts leaves the same state as the whole batch. -/
def Obligations.DsAbsorbSplittingLaw : Prop :=
  ∀ (c : ClassCode) (a b : List Nat) (s : State), 1 ≤ s.params.rate →
    s.sponge.idx ≤ s.params.rate →
    dsAbsorb c (a ++ b) s = dsAbsorb c b (dsAbsorb c a s)

/-- 42_domain_separation.md R156, R157: `ABSORB_DOMAIN` installs the vector of its context, whatever
tweak was pending, and absorbs nothing; the vector is canonical and depends on the context and lane
alone. -/
def Obligations.ContextIsInstalled : Prop :=
  ∀ (ctx : List Byte) (s : State), s.Ready →
    exec (.absorbDomain ctx) s = .next { s with
      tweak :=
        { cur := s.tweak.cur
          present := true
          vec := (List.range s.params.rate).map (fun l => domainDerive s.params ctx l)
          rem := s.params.rate
          align := true }
      dout := s.dout ++ [0x00] }
    ∧ (0 < s.params.P → ∀ l, domainDerive s.params ctx l < s.params.P)

/-- 42_domain_separation.md R162 ("[derived: from rules R152, R156]"): whatever batches are absorbed
between the context and the digest, when no element comes at or after the next lane 0, the elements
of the digest's flush included, the digest is the same as without the context. -/
def Obligations.ContextWithNothingAfterIt : Prop :=
  ∀ (ctx : List Byte) (batches : List (ClassCode × List Nat)) (s t : State), s.Ready →
    1 ≤ s.params.rate → s.tweak.cur < s.params.rate → s.tweak.present = false →
    (batches.map (fun b => b.2.length)).sum + (flushList s.params s.cfg s.buf).length
      ≤ (s.params.rate - s.tweak.cur) % s.params.rate →
    exec (.absorbDomain ctx) s = .next t →
    let absorbed (u : State) : State := batches.foldl (fun u b => dsAbsorb b.1 b.2 u) u
    digestElem (absorbed t) = digestElem (absorbed s)

/-! ### The field adapter -/

/-- 43_field_adapter.md R171, R173, R174, R175: what each command of the field adapter hands to
`ds_absorb`, and that it touches no byte of the packing buffer. -/
def Obligations.FieldAdapterCommandsComplete : Prop :=
  ∀ s : State, s.Ready →
    (∀ v, v < s.params.P →
      exec (.updBase [v]) s = .next { dsAbsorb .base [v] s with dout := s.dout ++ [0x00] })
    ∧ (∀ b : List Byte, s.params.scalarBits ≤ fieldBits s.params →
      b.length = scalarBytes s.params →
      exec (.updScalar b) s =
        .next { dsAbsorb .scalar [leNat b % s.params.P] s with dout := s.dout ++ [0x00] })
    ∧ (∀ x y, x < s.params.P → y < s.params.P →
      exec (.updPoint [x, y]) s =
        .next { dsAbsorb .pointFinite [x, y] s with dout := s.dout ++ [0x00] })
    ∧ exec (.updPointInf 0) s = .next { dsAbsorb .pointInf [0] s with dout := s.dout ++ [0x00] }
    ∧ ∀ c e, (dsAbsorb c e s).buf = s.buf

/-! ### The packing buffer -/

/-- 44_packing_buffer.md R192: `leb128` reads back as its value in groups of seven bits, least
significant first; bit 7 is set on every byte but the last; no group is redundant; the lengths. The
spec supplies the code itself ("[from general knowledge, not in source]", log entry 7). -/
def Obligations.Leb128IsTheMinimalCode : Prop :=
  ∀ v : Nat,
    (∑ i ∈ Finset.range (leb128 v).length, ((leb128 v).getD i 0).toNat % 128 * 128 ^ i) = v
    ∧ (∀ i, i < (leb128 v).length →
        (128 ≤ ((leb128 v).getD i 0).toNat ↔ i + 1 < (leb128 v).length))
    ∧ (v = 0 → leb128 v = [0x00])
    ∧ (v ≠ 0 → ∃ b, (leb128 v).getLast? = some b ∧ b ≠ 0)
    ∧ (v < 2 ^ 7 ↔ (leb128 v).length = 1)
    ∧ (2 ^ 7 ≤ v → v < 2 ^ 14 → (leb128 v).length = 2)
    ∧ (2 ^ 14 ≤ v → v < 2 ^ 21 → (leb128 v).length = 3)
    ∧ (v < 2 ^ 64 → (leb128 v).length ≤ 10)

/-- 44_packing_buffer.md R201, R196: `drain` takes whole chunks from the head, in order, each as
`LE(chunk) mod P`, and leaves less than a chunk. -/
def Obligations.DrainTakesWholeChunks : Prop :=
  ∀ (C : Params) (c : Cfg) (b : List Byte), 1 ≤ chunkSize c →
    (drain C c b).1 = (List.range (b.length / chunkSize c)).map
      (fun k => leNat ((b.drop (k * chunkSize c)).take (chunkSize c)) % C.P)
    ∧ (drain C c b).2 = b.drop (b.length / chunkSize c * chunkSize c)
    ∧ (drain C c b).2.length < chunkSize c

/-- 44_packing_buffer.md R202, R203, R204: `flush_list` is the whole chunks and then, if bytes are
left, one element: the remainder alone under zero padding, the count and then the remainder under
length prefix. With nothing left it emits nothing more. -/
def Obligations.FlushPadsTheRemainder : Prop :=
  ∀ (C : Params) (c : Cfg) (b : List Byte), 1 ≤ chunkSize c →
    ((drain C c b).2 = [] → flushList C c b = (drain C c b).1)
    ∧ ((drain C c b).2 ≠ [] → c.pad = .zero →
        flushList C c b = (drain C c b).1 ++ [leNat (drain C c b).2 % C.P])
    ∧ ((drain C c b).2 ≠ [] → c.pad = .lengthPrefix → (drain C c b).2.length ≤ 255 →
        flushList C c b = (drain C c b).1 ++
          [((drain C c b).2.length + 256 * leNat (drain C c b).2) % C.P])
    ∧ (c.pk = .circuitFriendly → flushList C c b = b.map (fun x => x.toNat % C.P))

/-- 44_packing_buffer.md R226 (e) ("[derived: from rules R188, R196, R202, R203, R204]"): packing
sees the byte stream, not the command boundaries: bytes pushed and extracted in two parts leave the
same state as in one. -/
def Obligations.ExtractionIgnoresBoundaries : Prop :=
  ∀ (x y : List Byte) (s : State), 1 ≤ s.params.rate → s.sponge.idx ≤ s.params.rate →
    1 ≤ chunkSize s.cfg →
    extract (bufPush y (extract (bufPush x s))) = extract (bufPush (x ++ y) s)

/-- 44_packing_buffer.md R189, R190, R191: the push commands append to `BUF` and change nothing
else. -/
def Obligations.PushCommandsComplete : Prop :=
  ∀ s : State, s.Ready →
    (∀ k : Kind, Fits s 1 → exec (.pushTag k 0) s =
      .next { s with buf := s.buf ++ [tagAt s.params k], dout := s.dout ++ [0x00] })
    ∧ (∀ b : List Byte, Fits s b.length → exec (.pushBytes b) s =
      .next { s with buf := s.buf ++ b, dout := s.dout ++ [0x00] })
    ∧ (∀ b : List Byte, b.length = 8 → Fits s (leb128 (leNat b)).length →
      exec (.pushVarint b) s =
        .next { s with buf := s.buf ++ leb128 (leNat b), dout := s.dout ++ [0x00] })

/-- 44_packing_buffer.md R209, R210 (R201, R202, R224): `PB_EXTRACT` and `PB_FLUSH` hand the
elements of the live buffer to `ds_absorb` with class `PRIMITIVE`. -/
def Obligations.ExtractAndFlushComplete : Prop :=
  ∀ s : State, s.Ready →
    exec (.pbExtract 0) s = .next
      { dsAbsorb .primitive (drain s.params s.cfg s.buf).1
          { s with buf := (drain s.params s.cfg s.buf).2 } with dout := s.dout ++ [0x00] }
    ∧ exec (.pbFlush 0) s = .next
      { dsAbsorb .primitive (flushList s.params s.cfg s.buf) { s with buf := [] } with
        dout := s.dout ++ [0x00] }

/-- 44_packing_buffer.md R195, R211 to R223: each update of a primitive pushes its tag, for strings
and byte strings the length, and its payload, and extracts the whole chunks. -/
def Obligations.PrimitiveUpdatesComplete : Prop :=
  ∀ (s : State) (b : List Byte), s.Ready →
    let done (bytes : List Byte) (o : Host.Outcome State Fault Refusal) : Prop :=
      Fits s bytes.length →
      o = .next { extract { s with buf := s.buf ++ bytes } with dout := s.dout ++ [0x00] }
    (b.length = 1 → b.getD 0 0 ≤ 1 → done (tagAt s.params .bool :: b) (exec (.updBool b) s))
    ∧ (b.length = 1 → done (tagAt s.params .u8 :: b) (exec (.updU8 b) s))
    ∧ (b.length = 2 → done (tagAt s.params .u16 :: b) (exec (.updU16 b) s))
    ∧ (b.length = 4 → done (tagAt s.params .u32 :: b) (exec (.updU32 b) s))
    ∧ (b.length = 8 → done (tagAt s.params .u64 :: b) (exec (.updU64 b) s))
    ∧ (b.length = 16 → done (tagAt s.params .u128 :: b) (exec (.updU128 b) s))
    ∧ (b.length = 1 → done (tagAt s.params .i8 :: b) (exec (.updI8 b) s))
    ∧ (b.length = 2 → done (tagAt s.params .i16 :: b) (exec (.updI16 b) s))
    ∧ (b.length = 4 → done (tagAt s.params .i32 :: b) (exec (.updI32 b) s))
    ∧ (b.length = 8 → done (tagAt s.params .i64 :: b) (exec (.updI64 b) s))
    ∧ (b.length = 16 → done (tagAt s.params .i128 :: b) (exec (.updI128 b) s))
    ∧ done (tagAt s.params .str :: (leb128 b.length ++ b)) (exec (.updStr b) s)
    ∧ done (tagAt s.params .bytes :: (leb128 b.length ++ b)) (exec (.updBytes b) s)

/-- 30_encoding.md R86, 44_packing_buffer.md R222, R223: the long form of a string or byte string
`b`, which is `PUSH_TAG`, `PUSH_VARINT |b|`, `PUSH_BYTES` of successive pieces of at most 65535
bytes, `PB_EXTRACT`. Each of its commands has an encoding, each answers `OK`, and it leaves the
state of the one command whose payload is `b`, but for the responses sent. -/
def Obligations.LongFormsLeaveTheSameState : Prop :=
  ∀ (s : State) (pieces : List (List Byte)) (k : Kind), s.Ready → (k = .str ∨ k = .bytes) →
    (∀ x ∈ pieces, x.length ≤ 65535) →
    let b := pieces.flatten
    let long : List Instr :=
      [.pushTag k 0, .pushVarint (bytesLE b.length 8)] ++ pieces.map .pushBytes ++ [.pbExtract 0]
    b.length < 2 ^ 64 → Fits s (1 + (leb128 b.length).length + b.length) →
    (∀ fe, ∀ i ∈ long, i.wf fe = true)
    ∧ ∃ t, runCommands long s = .next t
      ∧ t.dout = s.dout ++ List.replicate long.length 0x00
      ∧ exec (if k = .str then .updStr b else .updBytes b) s =
        .next { t with dout := s.dout ++ [0x00] }

/-! ### The hasher façade -/

/-- 45_hasher.md R231, R232, R233: `NEW` builds an instance with the configuration of its bits,
whatever the block held before, and leaves only `FAULT` and `ERR`. -/
def Obligations.NewBuildsAnInstance : Prop :=
  ∀ (pk : PackMode) (pad : PadPolicy) (ovr : Bool) (len : Len) (s : State), s.fault = false →
    s.params.scalarBits ≤ fieldBits s.params →
    (ovr = true → 1 ≤ len.toNat ∧ len.toNat ≤ 256) → (ovr = false → len = 0) →
    exec (.new pk pad ovr len) s = .next { s with
      sponge := ⟨List.replicate s.params.width 0, .absorbing, 0⟩
      base := ⟨List.replicate s.params.width 0, .absorbing, 0⟩
      tweak := ⟨0, false, List.replicate s.params.rate 0, 0, false⟩
      count := 0
      buf := []
      cfg := ⟨pk, pad, if ovr then len.toNat else max 1 ((fieldBits s.params - 8) / 8)⟩
      live := true
      dout := s.dout ++ [0x00] }

/-- 45_hasher.md R239, 95_test_vectors.md E7: `RESET` restores the sponge from the base snapshot and
clears buffer, cursor, tweak and counter; on a state with the invariant of R35 that is the state of
a fresh instance of the same configuration. -/
def Obligations.ResetRestoresAFreshInstance : Prop :=
  ∀ s : State, s.Ready →
    exec (.reset 0) s = .next { s with
      sponge := s.base
      tweak := ⟨0, false, List.replicate s.params.rate 0, 0, false⟩
      count := 0
      buf := []
      dout := s.dout ++ [0x00] }
    ∧ (s.Inv → ∀ (ovr : Bool) (len : Len) (t u : State),
        s.params.scalarBits ≤ fieldBits s.params →
        newCfg s.params s.cfg.pk s.cfg.pad ovr len = s.cfg →
        (ovr = true → 1 ≤ len.toNat ∧ len.toNat ≤ 256) → (ovr = false → len = 0) →
        exec (.reset 0) s = .next t → exec (.new s.cfg.pk s.cfg.pad ovr len) s = .next u → t = u)

/-- 45_hasher.md R236, 20_memory.md R56: `DIGEST` answers one element computed on copies and changes
no state, so that a second `DIGEST` answers the same. -/
def Obligations.DigestChangesNothing : Prop :=
  ∀ s : State, s.Ready →
    let v := (dsTransform s.params .primitive s.tweak (flushList s.params s.cfg s.buf)).1
    let o := (spSqueeze s.params (spAbsorb s.params s.sponge v) 1).1.getD 0 0
    let t : State := { s with dout := s.dout ++ 0x00 :: bytesLE o (feBytes s.params) }
    exec (.digest 0) s = .next t
    ∧ exec (.digest 0) t =
        .next { t with dout := t.dout ++ 0x00 :: bytesLE o (feBytes s.params) }

/-- 45_hasher.md R238 ("[derived: from rules R236, R237]"): `DIGEST` and `FINALIZE` answer the same
field element. -/
def Obligations.DigestEqualsFinalize : Prop :=
  ∀ s t u : State, s.live = true → exec (.digest 0) s = .next t → exec (.finalize 0) s = .next u →
    t.dout = u.dout

/-- 45_hasher.md R237, 10_state.md R37: `FINALIZE` answers the element of the flushed instance and
leaves the state of hardware reset apart from `FAULT` and `ERR`. -/
def Obligations.FinalizeWipes : Prop :=
  ∀ s : State, s.Ready →
    let v := (dsTransform s.params .primitive s.tweak (flushList s.params s.cfg s.buf)).1
    let o := (spSqueeze s.params (spAbsorb s.params s.sponge v) 1).1.getD 0 0
    exec (.finalize 0) s = .next
      { State.resetWith s.params with
        fault := s.fault
        err := s.err
        din := s.din
        dout := s.dout ++ 0x00 :: bytesLE o (feBytes s.params)
        rst := s.rst }

/-- 45_hasher.md R240, R241: `COUNT` answers the counter in eight bytes; `STATUS` answers the flags
and `ERR`, in every state; neither changes a state. -/
def Obligations.CountAndStatusAnswer : Prop :=
  (∀ s : State, s.Ready →
    exec (.count 0) s = .next { s with dout := s.dout ++ 0x00 :: bytesLE s.count.toNat 8 })
  ∧ (∀ s : State, exec (.status 0) s = .next { s with
    dout := s.dout ++ [0x00, BitVec.ofNat 8 (s.live.toNat + 2 * s.fault.toNat), s.err] })
end

