-- ==== Sys2Proof/Laws/Bytes.lean ====
section
/-! SUPPORT. Byte strings and field elements on the port: what `leNat`, `bytesLE`, `elemBytes` and
`splitElems` of Decode.lean give. -/

namespace Sys2Proof

@[simp] theorem leNat_nil : leNat [] = 0 := rfl

@[simp] theorem leNat_cons (b : Byte) (bs : List Byte) :
    leNat (b :: bs) = b.toNat + 256 * leNat bs := rfl

theorem leNat_append (a b : List Byte) : leNat (a ++ b) = leNat a + 256 ^ a.length * leNat b := by
  induction a with
  | nil => simp
  | cons x xs ih => simp [ih, pow_succ]; ring

theorem leNat_replicate_zero (n : Nat) : leNat (List.replicate n 0) = 0 := by
  induction n with
  | zero => rfl
  | succ n ih => rw [List.replicate_succ, leNat_cons, ih]; rfl

theorem leNat_lt (b : List Byte) : leNat b < 256 ^ b.length := by
  induction b with
  | nil => simp
  | cons x xs ih =>
    have := x.isLt
    simp only [leNat_cons, List.length_cons, pow_succ]
    omega

@[simp] theorem bytesLE_length (v n : Nat) : (bytesLE v n).length = n := by
  induction n generalizing v with
  | zero => rfl
  | succ n ih => simp [bytesLE, ih]

/-- Reading `n` bytes back gives the value modulo `256^n`, with no bound on the value. -/
theorem leNat_bytesLE_mod (v n : Nat) : leNat (bytesLE v n) = v % 256 ^ n := by
  induction n generalizing v with
  | zero => simp [bytesLE, Nat.mod_one]
  | succ n ih =>
    rw [bytesLE, leNat_cons, ih, BitVec.toNat_ofNat, Nat.pow_succ' (m := 256), Nat.mod_mul]

@[simp] theorem elemBytes_nil (fe : Nat) : elemBytes fe [] = [] := rfl

@[simp] theorem elemBytes_cons (fe v : Nat) (e : List Nat) :
    elemBytes fe (v :: e) = bytesLE v fe ++ elemBytes fe e := rfl

theorem elemBytes_length (fe : Nat) (e : List Nat) : (elemBytes fe e).length = e.length * fe := by
  induction e with
  | nil => simp
  | cons v e ih => simp [ih, Nat.succ_mul, Nat.add_comm]

theorem splitElems_length (fe n : Nat) (b : List Byte) : (splitElems fe n b).length = n := by
  induction n generalizing b with
  | zero => rfl
  | succ n ih => simp [splitElems, ih]

end Sys2Proof
end

