-- ==== Sys2Proof/Laws/Commands.lean ====
section
/-! SUPPORT. Sequences of commands (Safety.lean): the first command, and a sequence cut in two. -/

namespace Sys2Proof.Machine

@[simp] theorem runCommands_nil (s : State) : runCommands [] s = .next s := rfl

/-- A sequence whose first command completes goes on from the state it leaves. -/
theorem runCommands_cons {i : Instr} {s t : State} (is : List Instr) (h : exec i s = .next t) :
    runCommands (i :: is) s = runCommands is t := by
  rw [runCommands, h]

/-- A sequence whose first part completes goes on with the second part. -/
theorem runCommands_append {a : List Instr} {s t : State} (b : List Instr)
    (h : runCommands a s = .next t) : runCommands (a ++ b) s = runCommands b t := by
  induction a generalizing s with
  | nil => rw [runCommands_nil] at h; cases h; rfl
  | cons i is ih =>
    rw [runCommands] at h
    split at h
    · next u hu => rw [List.cons_append, runCommands_cons _ hu]; exact ih h
    · cases h
    · cases h

end Sys2Proof.Machine
end

