-- ==== Sys2Proof/Laws/Field.lean ====
section
/-! SUPPORT. The field operations of Machine/Field.lean as arithmetic on numbers modulo `P`, and when
their results are canonical. -/

namespace Sys2Proof.Machine

theorem fadd_lt {P : Nat} (h : 0 < P) (a b : Nat) : fadd P a b < P := Nat.mod_lt _ h

theorem fmul_lt {P : Nat} (h : 0 < P) (a b : Nat) : fmul P a b < P := Nat.mod_lt _ h

theorem fsum_lt {P : Nat} (h : 0 < P) (x : List Nat) : fsum P x < P := by
  cases x with
  | nil => exact h
  | cons a x => exact fadd_lt h _ _

/-- The sum in the field is the sum of the numbers, reduced once. -/
theorem fsum_eq_sum_mod (P : Nat) (x : List Nat) : fsum P x = x.sum % P := by
  induction x with
  | nil => simp [fsum]
  | cons a x ih => simp [fsum, fadd, ih, Nat.add_mod]

/-- The power in the field is the power of the number, reduced once. -/
theorem fpow_eq_pow_mod (P a n : Nat) : fpow P a n = a ^ n % P := by
  induction n with
  | zero => simp [fpow]
  | succ n ih => simp [fpow, fmul, ih, pow_succ, Nat.mul_mod]

end Sys2Proof.Machine
end

