-- ==== Sys2Proof/Laws/State.lean ====
section
/-! SUPPORT. What each update of the state (Machine/Ops.lean) leaves in each field, so that no proof
unfolds a record update. -/

namespace Sys2Proof.Machine

variable (s : State)

/-! ### After `setSponge`: `S`, `MODE`, `IDX` are written -/

@[simp] theorem State.setSponge_sponge (sp : Sponge) : (s.setSponge sp).sponge = sp := rfl
@[simp] theorem State.setSponge_base (sp : Sponge) : (s.setSponge sp).base = s.base := rfl
@[simp] theorem State.setSponge_tweak (sp : Sponge) : (s.setSponge sp).tweak = s.tweak := rfl
@[simp] theorem State.setSponge_count (sp : Sponge) : (s.setSponge sp).count = s.count := rfl
@[simp] theorem State.setSponge_buf (sp : Sponge) : (s.setSponge sp).buf = s.buf := rfl
@[simp] theorem State.setSponge_cfg (sp : Sponge) : (s.setSponge sp).cfg = s.cfg := rfl
@[simp] theorem State.setSponge_live (sp : Sponge) : (s.setSponge sp).live = s.live := rfl
@[simp] theorem State.setSponge_fault (sp : Sponge) : (s.setSponge sp).fault = s.fault := rfl
@[simp] theorem State.setSponge_err (sp : Sponge) : (s.setSponge sp).err = s.err := rfl
@[simp] theorem State.setSponge_params (sp : Sponge) : (s.setSponge sp).params = s.params := rfl
@[simp] theorem State.setSponge_din (sp : Sponge) : (s.setSponge sp).din = s.din := rfl
@[simp] theorem State.setSponge_dout (sp : Sponge) : (s.setSponge sp).dout = s.dout := rfl
@[simp] theorem State.setSponge_rst (sp : Sponge) : (s.setSponge sp).rst = s.rst := rfl

/-! ### After `setTweak`: the cursor and the pending tweak are written -/

@[simp] theorem State.setTweak_sponge (t : Tweak) : (s.setTweak t).sponge = s.sponge := rfl
@[simp] theorem State.setTweak_base (t : Tweak) : (s.setTweak t).base = s.base := rfl
@[simp] theorem State.setTweak_tweak (t : Tweak) : (s.setTweak t).tweak = t := rfl
@[simp] theorem State.setTweak_count (t : Tweak) : (s.setTweak t).count = s.count := rfl
@[simp] theorem State.setTweak_buf (t : Tweak) : (s.setTweak t).buf = s.buf := rfl
@[simp] theorem State.setTweak_cfg (t : Tweak) : (s.setTweak t).cfg = s.cfg := rfl
@[simp] theorem State.setTweak_live (t : Tweak) : (s.setTweak t).live = s.live := rfl
@[simp] theorem State.setTweak_fault (t : Tweak) : (s.setTweak t).fault = s.fault := rfl
@[simp] theorem State.setTweak_err (t : Tweak) : (s.setTweak t).err = s.err := rfl
@[simp] theorem State.setTweak_params (t : Tweak) : (s.setTweak t).params = s.params := rfl
@[simp] theorem State.setTweak_din (t : Tweak) : (s.setTweak t).din = s.din := rfl
@[simp] theorem State.setTweak_dout (t : Tweak) : (s.setTweak t).dout = s.dout := rfl
@[simp] theorem State.setTweak_rst (t : Tweak) : (s.setTweak t).rst = s.rst := rfl

/-! ### After `addCount`: `COUNT` is advanced -/

@[simp] theorem State.addCount_sponge (n : Nat) : (s.addCount n).sponge = s.sponge := rfl
@[simp] theorem State.addCount_base (n : Nat) : (s.addCount n).base = s.base := rfl
@[simp] theorem State.addCount_tweak (n : Nat) : (s.addCount n).tweak = s.tweak := rfl
@[simp] theorem State.addCount_count (n : Nat) : (s.addCount n).count = s.count + BitVec.ofNat 64 n := rfl
@[simp] theorem State.addCount_buf (n : Nat) : (s.addCount n).buf = s.buf := rfl
@[simp] theorem State.addCount_cfg (n : Nat) : (s.addCount n).cfg = s.cfg := rfl
@[simp] theorem State.addCount_live (n : Nat) : (s.addCount n).live = s.live := rfl
@[simp] theorem State.addCount_fault (n : Nat) : (s.addCount n).fault = s.fault := rfl
@[simp] theorem State.addCount_err (n : Nat) : (s.addCount n).err = s.err := rfl
@[simp] theorem State.addCount_params (n : Nat) : (s.addCount n).params = s.params := rfl
@[simp] theorem State.addCount_din (n : Nat) : (s.addCount n).din = s.din := rfl
@[simp] theorem State.addCount_dout (n : Nat) : (s.addCount n).dout = s.dout := rfl
@[simp] theorem State.addCount_rst (n : Nat) : (s.addCount n).rst = s.rst := rfl

/-! ### After `setBuf`: `BUF` is written -/

@[simp] theorem State.setBuf_sponge (b : List Byte) : (s.setBuf b).sponge = s.sponge := rfl
@[simp] theorem State.setBuf_base (b : List Byte) : (s.setBuf b).base = s.base := rfl
@[simp] theorem State.setBuf_tweak (b : List Byte) : (s.setBuf b).tweak = s.tweak := rfl
@[simp] theorem State.setBuf_count (b : List Byte) : (s.setBuf b).count = s.count := rfl
@[simp] theorem State.setBuf_buf (b : List Byte) : (s.setBuf b).buf = b := rfl
@[simp] theorem State.setBuf_cfg (b : List Byte) : (s.setBuf b).cfg = s.cfg := rfl
@[simp] theorem State.setBuf_live (b : List Byte) : (s.setBuf b).live = s.live := rfl
@[simp] theorem State.setBuf_fault (b : List Byte) : (s.setBuf b).fault = s.fault := rfl
@[simp] theorem State.setBuf_err (b : List Byte) : (s.setBuf b).err = s.err := rfl
@[simp] theorem State.setBuf_params (b : List Byte) : (s.setBuf b).params = s.params := rfl
@[simp] theorem State.setBuf_din (b : List Byte) : (s.setBuf b).din = s.din := rfl
@[simp] theorem State.setBuf_dout (b : List Byte) : (s.setBuf b).dout = s.dout := rfl
@[simp] theorem State.setBuf_rst (b : List Byte) : (s.setBuf b).rst = s.rst := rfl

/-! ### After `setLive`: `LIVE` is written -/

@[simp] theorem State.setLive_sponge (b : Bool) : (s.setLive b).sponge = s.sponge := rfl
@[simp] theorem State.setLive_base (b : Bool) : (s.setLive b).base = s.base := rfl
@[simp] theorem State.setLive_tweak (b : Bool) : (s.setLive b).tweak = s.tweak := rfl
@[simp] theorem State.setLive_count (b : Bool) : (s.setLive b).count = s.count := rfl
@[simp] theorem State.setLive_buf (b : Bool) : (s.setLive b).buf = s.buf := rfl
@[simp] theorem State.setLive_cfg (b : Bool) : (s.setLive b).cfg = s.cfg := rfl
@[simp] theorem State.setLive_live (b : Bool) : (s.setLive b).live = b := rfl
@[simp] theorem State.setLive_fault (b : Bool) : (s.setLive b).fault = s.fault := rfl
@[simp] theorem State.setLive_err (b : Bool) : (s.setLive b).err = s.err := rfl
@[simp] theorem State.setLive_params (b : Bool) : (s.setLive b).params = s.params := rfl
@[simp] theorem State.setLive_din (b : Bool) : (s.setLive b).din = s.din := rfl
@[simp] theorem State.setLive_dout (b : Bool) : (s.setLive b).dout = s.dout := rfl
@[simp] theorem State.setLive_rst (b : Bool) : (s.setLive b).rst = s.rst := rfl

/-! ### After `send`: bytes are sent on `DOUT` -/

@[simp] theorem State.send_sponge (b : List Byte) : (s.send b).sponge = s.sponge := rfl
@[simp] theorem State.send_base (b : List Byte) : (s.send b).base = s.base := rfl
@[simp] theorem State.send_tweak (b : List Byte) : (s.send b).tweak = s.tweak := rfl
@[simp] theorem State.send_count (b : List Byte) : (s.send b).count = s.count := rfl
@[simp] theorem State.send_buf (b : List Byte) : (s.send b).buf = s.buf := rfl
@[simp] theorem State.send_cfg (b : List Byte) : (s.send b).cfg = s.cfg := rfl
@[simp] theorem State.send_live (b : List Byte) : (s.send b).live = s.live := rfl
@[simp] theorem State.send_fault (b : List Byte) : (s.send b).fault = s.fault := rfl
@[simp] theorem State.send_err (b : List Byte) : (s.send b).err = s.err := rfl
@[simp] theorem State.send_params (b : List Byte) : (s.send b).params = s.params := rfl
@[simp] theorem State.send_din (b : List Byte) : (s.send b).din = s.din := rfl
@[simp] theorem State.send_dout (b : List Byte) : (s.send b).dout = s.dout ++ b := rfl
@[simp] theorem State.send_rst (b : List Byte) : (s.send b).rst = s.rst := rfl

/-! ### After `setDin`: bytes of `DIN` are consumed -/

@[simp] theorem State.setDin_sponge (b : List Byte) : (s.setDin b).sponge = s.sponge := rfl
@[simp] theorem State.setDin_base (b : List Byte) : (s.setDin b).base = s.base := rfl
@[simp] theorem State.setDin_tweak (b : List Byte) : (s.setDin b).tweak = s.tweak := rfl
@[simp] theorem State.setDin_count (b : List Byte) : (s.setDin b).count = s.count := rfl
@[simp] theorem State.setDin_buf (b : List Byte) : (s.setDin b).buf = s.buf := rfl
@[simp] theorem State.setDin_cfg (b : List Byte) : (s.setDin b).cfg = s.cfg := rfl
@[simp] theorem State.setDin_live (b : List Byte) : (s.setDin b).live = s.live := rfl
@[simp] theorem State.setDin_fault (b : List Byte) : (s.setDin b).fault = s.fault := rfl
@[simp] theorem State.setDin_err (b : List Byte) : (s.setDin b).err = s.err := rfl
@[simp] theorem State.setDin_params (b : List Byte) : (s.setDin b).params = s.params := rfl
@[simp] theorem State.setDin_din (b : List Byte) : (s.setDin b).din = b := rfl
@[simp] theorem State.setDin_dout (b : List Byte) : (s.setDin b).dout = s.dout := rfl
@[simp] theorem State.setDin_rst (b : List Byte) : (s.setDin b).rst = s.rst := rfl

/-! ### After `respond`: an `OK` response -/

@[simp] theorem respond_sponge (data : List Byte) : (respond data s).sponge = s.sponge := rfl
@[simp] theorem respond_base (data : List Byte) : (respond data s).base = s.base := rfl
@[simp] theorem respond_tweak (data : List Byte) : (respond data s).tweak = s.tweak := rfl
@[simp] theorem respond_count (data : List Byte) : (respond data s).count = s.count := rfl
@[simp] theorem respond_buf (data : List Byte) : (respond data s).buf = s.buf := rfl
@[simp] theorem respond_cfg (data : List Byte) : (respond data s).cfg = s.cfg := rfl
@[simp] theorem respond_live (data : List Byte) : (respond data s).live = s.live := rfl
@[simp] theorem respond_fault (data : List Byte) : (respond data s).fault = s.fault := rfl
@[simp] theorem respond_err (data : List Byte) : (respond data s).err = s.err := rfl
@[simp] theorem respond_params (data : List Byte) : (respond data s).params = s.params := rfl
@[simp] theorem respond_din (data : List Byte) : (respond data s).din = s.din := rfl
@[simp] theorem respond_dout (data : List Byte) :
    (respond data s).dout = s.dout ++ statusCode .ok :: data := rfl
@[simp] theorem respond_rst (data : List Byte) : (respond data s).rst = s.rst := rfl

/-! ### After `raise`: an error is taken -/

@[simp] theorem raise_sponge (e : Status) : (raise e s).sponge = s.sponge := rfl
@[simp] theorem raise_base (e : Status) : (raise e s).base = s.base := rfl
@[simp] theorem raise_tweak (e : Status) : (raise e s).tweak = s.tweak := rfl
@[simp] theorem raise_count (e : Status) : (raise e s).count = s.count := rfl
@[simp] theorem raise_buf (e : Status) : (raise e s).buf = s.buf := rfl
@[simp] theorem raise_cfg (e : Status) : (raise e s).cfg = s.cfg := rfl
@[simp] theorem raise_live (e : Status) : (raise e s).live = s.live := rfl
@[simp] theorem raise_fault (e : Status) : (raise e s).fault = true := rfl
@[simp] theorem raise_err (e : Status) :
    (raise e s).err = if s.fault then s.err else statusCode e := rfl
@[simp] theorem raise_params (e : Status) : (raise e s).params = s.params := rfl
@[simp] theorem raise_din (e : Status) : (raise e s).din = s.din := rfl
@[simp] theorem raise_dout (e : Status) : (raise e s).dout = s.dout ++ [statusCode e] := rfl
@[simp] theorem raise_rst (e : Status) : (raise e s).rst = s.rst := rfl

/-! ### After `refuseFaulted`: a command is answered while `FAULT = 1` -/

@[simp] theorem refuseFaulted_sponge : (refuseFaulted s).sponge = s.sponge := rfl
@[simp] theorem refuseFaulted_base : (refuseFaulted s).base = s.base := rfl
@[simp] theorem refuseFaulted_tweak : (refuseFaulted s).tweak = s.tweak := rfl
@[simp] theorem refuseFaulted_count : (refuseFaulted s).count = s.count := rfl
@[simp] theorem refuseFaulted_buf : (refuseFaulted s).buf = s.buf := rfl
@[simp] theorem refuseFaulted_cfg : (refuseFaulted s).cfg = s.cfg := rfl
@[simp] theorem refuseFaulted_live : (refuseFaulted s).live = s.live := rfl
@[simp] theorem refuseFaulted_fault : (refuseFaulted s).fault = s.fault := rfl
@[simp] theorem refuseFaulted_err : (refuseFaulted s).err = s.err := rfl
@[simp] theorem refuseFaulted_params : (refuseFaulted s).params = s.params := rfl
@[simp] theorem refuseFaulted_din : (refuseFaulted s).din = s.din := rfl
@[simp] theorem refuseFaulted_dout :
    (refuseFaulted s).dout = s.dout ++ [statusCode .eFaulted] := rfl
@[simp] theorem refuseFaulted_rst : (refuseFaulted s).rst = s.rst := rfl

/-! ### After `bufPush`: bytes are pushed -/

@[simp] theorem bufPush_sponge (b : List Byte) : (bufPush b s).sponge = s.sponge := rfl
@[simp] theorem bufPush_base (b : List Byte) : (bufPush b s).base = s.base := rfl
@[simp] theorem bufPush_tweak (b : List Byte) : (bufPush b s).tweak = s.tweak := rfl
@[simp] theorem bufPush_count (b : List Byte) : (bufPush b s).count = s.count := rfl
@[simp] theorem bufPush_buf (b : List Byte) : (bufPush b s).buf = s.buf ++ b := rfl
@[simp] theorem bufPush_cfg (b : List Byte) : (bufPush b s).cfg = s.cfg := rfl
@[simp] theorem bufPush_live (b : List Byte) : (bufPush b s).live = s.live := rfl
@[simp] theorem bufPush_fault (b : List Byte) : (bufPush b s).fault = s.fault := rfl
@[simp] theorem bufPush_err (b : List Byte) : (bufPush b s).err = s.err := rfl
@[simp] theorem bufPush_params (b : List Byte) : (bufPush b s).params = s.params := rfl
@[simp] theorem bufPush_din (b : List Byte) : (bufPush b s).din = s.din := rfl
@[simp] theorem bufPush_dout (b : List Byte) : (bufPush b s).dout = s.dout := rfl
@[simp] theorem bufPush_rst (b : List Byte) : (bufPush b s).rst = s.rst := rfl

/-! ### After `wipe`: a wipe -/

@[simp] theorem wipe_sponge : (wipe s).sponge = zeroSponge s.params := rfl
@[simp] theorem wipe_base : (wipe s).base = zeroSponge s.params := rfl
@[simp] theorem wipe_tweak : (wipe s).tweak = zeroTweak s.params := rfl
@[simp] theorem wipe_count : (wipe s).count = 0 := rfl
@[simp] theorem wipe_buf : (wipe s).buf = [] := rfl
@[simp] theorem wipe_cfg : (wipe s).cfg = resetCfg s.params := rfl
@[simp] theorem wipe_live : (wipe s).live = s.live := rfl
@[simp] theorem wipe_fault : (wipe s).fault = s.fault := rfl
@[simp] theorem wipe_err : (wipe s).err = s.err := rfl
@[simp] theorem wipe_params : (wipe s).params = s.params := rfl
@[simp] theorem wipe_din : (wipe s).din = s.din := rfl
@[simp] theorem wipe_dout : (wipe s).dout = s.dout := rfl
@[simp] theorem wipe_rst : (wipe s).rst = s.rst := rfl

/-! ### After `hardwareReset`: hardware reset -/

@[simp] theorem hardwareReset_sponge : (hardwareReset s).sponge = zeroSponge s.params := rfl
@[simp] theorem hardwareReset_base : (hardwareReset s).base = zeroSponge s.params := rfl
@[simp] theorem hardwareReset_tweak : (hardwareReset s).tweak = zeroTweak s.params := rfl
@[simp] theorem hardwareReset_count : (hardwareReset s).count = 0 := rfl
@[simp] theorem hardwareReset_buf : (hardwareReset s).buf = [] := rfl
@[simp] theorem hardwareReset_cfg : (hardwareReset s).cfg = resetCfg s.params := rfl
@[simp] theorem hardwareReset_live : (hardwareReset s).live = false := rfl
@[simp] theorem hardwareReset_fault : (hardwareReset s).fault = !paramsWF s.params := by
  simp only [hardwareReset, State.resetWith]
@[simp] theorem hardwareReset_err :
    (hardwareReset s).err = if paramsWF s.params then 0 else statusCode .eParams := by
  simp only [hardwareReset, State.resetWith]
@[simp] theorem hardwareReset_params : (hardwareReset s).params = s.params := rfl
@[simp] theorem hardwareReset_din : (hardwareReset s).din = [] := rfl
@[simp] theorem hardwareReset_dout : (hardwareReset s).dout = s.dout := rfl
@[simp] theorem hardwareReset_rst : (hardwareReset s).rst = false := rfl

end Sys2Proof.Machine
end

