-- ==== Sys2Proof/Laws/Ops.lean ====
section
/-! SUPPORT. One lemma for each shared operation of Machine/Ops.lean and Machine/Fetch.lean that says
everything it can do, to be cited instead of unfolding it. -/

namespace Sys2Proof.Machine

/-! ### Running a command (60_exceptions.md R265) -/

theorem command_of_fault (checks : List (Bool × Status)) (act : State → State) {s : State}
    (h : s.fault = true) : command checks act s = refuseFaulted s := by
  simp [command, h]

theorem command_of_failing (act : State → State) {checks : List (Bool × Status)} {s : State}
    {c : Bool × Status} (h : s.fault = false) (hc : checks.find? (fun c => c.1) = some c) :
    command checks act s = raise c.2 s := by
  simp [command, h, hc]

theorem command_of_passing (act : State → State) {checks : List (Bool × Status)} {s : State}
    (h : s.fault = false) (hc : ∀ c ∈ checks, c.1 = false) : command checks act s = act s := by
  have hn : checks.find? (fun c => c.1) = none := by
    rw [List.find?_eq_none]
    intro c hm
    simp [hc c hm]
  simp [command, h, hn]

/-- All that a command can do: refuse because `FAULT = 1`, raise the code of a check that fails, or
act, with every check passed. -/
theorem command_cases {checks : List (Bool × Status)} {act : State → State} {s t : State}
    (h : command checks act s = t) :
    (s.fault = true ∧ t = refuseFaulted s)
    ∨ (s.fault = false ∧ (∃ c ∈ checks, c.1 = true ∧ t = raise c.2 s))
    ∨ (s.fault = false ∧ (∀ c ∈ checks, c.1 = false) ∧ t = act s) := by
  cases hf : s.fault with
  | true => exact .inl ⟨rfl, by rw [← h, command_of_fault _ _ hf]⟩
  | false =>
    cases hc : checks.find? (fun c => c.1) with
    | some c =>
      refine .inr (.inl ⟨rfl, c, List.mem_of_find?_eq_some hc, ?_, ?_⟩)
      · simpa using List.find?_some hc
      · rw [← h, command_of_failing _ hf hc]
    | none =>
      have hp : ∀ c ∈ checks, c.1 = false := by
        intro c hm
        simpa using List.find?_eq_none.mp hc c hm
      exact .inr (.inr ⟨rfl, hp, by rw [← h, command_of_passing _ hf hp]⟩)

/-- A property of states that a command keeps: the refusal, every raise and the action keep it. -/
theorem command_keeps {p : State → Prop} {checks : List (Bool × Status)} {act : State → State}
    {s : State} (hr : p (refuseFaulted s))
    (he : ∀ c ∈ checks, s.fault = false → p (raise c.2 s))
    (ha : s.fault = false → (∀ c ∈ checks, c.1 = false) → p (act s)) :
    p (command checks act s) := by
  rcases command_cases (rfl : command checks act s = _) with ⟨_, h⟩ | ⟨hf, c, hm, _, h⟩ | ⟨hf, hp, h⟩
  · rw [h]; exact hr
  · rw [h]; exact he c hm hf
  · rw [h]; exact ha hf hp

/-- A raise on a block without a fault (60_exceptions.md R262). -/
theorem raise_of_no_fault (e : Status) {s : State} (h : s.fault = false) :
    raise e s =
      { s with fault := true, err := statusCode e, dout := s.dout ++ [statusCode e] } := by
  simp [raise, h]

/-- An illegal header is refused while `FAULT = 1` and raises `E_ILLEGAL` otherwise. -/
theorem refuseHeader_eq (s : State) :
    refuseHeader s = if s.fault then refuseFaulted s else raise .eIllegal s := by
  cases h : s.fault <;> simp [refuseHeader, command, h]

/-- The status code of an error is not 0, the code of `OK`. -/
theorem statusCode_eq_zero_iff (e : Status) : statusCode e = 0 ↔ e = .ok := by
  cases e <;> decide

theorem statusCode_injective : Function.Injective statusCode := by
  intro a b
  cases a <;> cases b <;> decide

/-! ### Taking a command from the port -/

@[simp] theorem awaitPayload_true_next (s t : State) :
    awaitPayload true s (.next t) = .next t := rfl

@[simp] theorem awaitPayload_false_next (s t : State) :
    awaitPayload false s (.next t) = .next s := rfl

/-- All that a step can do: act on `RST`, run the command it reads, answer a header that is no command,
or wait. -/
theorem step_cases {s : State} {o : Host.Outcome State Fault Refusal} (h : step s = o) :
    (s.rst = true ∧ o = .next (hardwareReset s))
    ∨ (s.rst = false ∧ ∃ i, (fetch s).result = .ok i
        ∧ o = awaitPayload (fetch s).complete s (exec i (s.setDin (fetch s).rest)))
    ∨ (s.rst = false ∧ ∃ e, (fetch s).result = .error e
        ∧ o = .next (if (fetch s).complete then refuseHeader (s.setDin (fetch s).rest) else s)) := by
  cases hr : s.rst with
  | true => exact .inl ⟨rfl, by rw [← h]; simp [step, hr]⟩
  | false =>
    cases hf : (fetch s).result with
    | ok i => exact .inr (.inl ⟨rfl, i, rfl, by rw [← h]; simp [step, hr, hf]⟩)
    | error e =>
      refine .inr (.inr ⟨rfl, e, rfl, ?_⟩)
      rw [← h]
      simp [step, hr, hf, awaitPayload]

/-! ### The batch operation `ds_absorb` and the buffer operations -/

variable (c : ClassCode) (e : List Nat) (s : State)

@[simp] theorem dsAbsorb_sponge :
    (dsAbsorb c e s).sponge = spAbsorb s.params s.sponge (dsTransform s.params c s.tweak e).1 := rfl
@[simp] theorem dsAbsorb_base : (dsAbsorb c e s).base = s.base := rfl
@[simp] theorem dsAbsorb_tweak :
    (dsAbsorb c e s).tweak = (dsTransform s.params c s.tweak e).2 := rfl
@[simp] theorem dsAbsorb_count :
    (dsAbsorb c e s).count = s.count + BitVec.ofNat 64 e.length := rfl
@[simp] theorem dsAbsorb_buf : (dsAbsorb c e s).buf = s.buf := rfl
@[simp] theorem dsAbsorb_cfg : (dsAbsorb c e s).cfg = s.cfg := rfl
@[simp] theorem dsAbsorb_live : (dsAbsorb c e s).live = s.live := rfl
@[simp] theorem dsAbsorb_fault : (dsAbsorb c e s).fault = s.fault := rfl
@[simp] theorem dsAbsorb_err : (dsAbsorb c e s).err = s.err := rfl
@[simp] theorem dsAbsorb_params : (dsAbsorb c e s).params = s.params := rfl
@[simp] theorem dsAbsorb_din : (dsAbsorb c e s).din = s.din := rfl
@[simp] theorem dsAbsorb_dout : (dsAbsorb c e s).dout = s.dout := rfl
@[simp] theorem dsAbsorb_rst : (dsAbsorb c e s).rst = s.rst := rfl

theorem extract_eq : extract s =
    dsAbsorb .primitive (drain s.params s.cfg s.buf).1
      (s.setBuf (drain s.params s.cfg s.buf).2) := rfl

theorem flush_eq : flush s =
    dsAbsorb .primitive (flushList s.params s.cfg s.buf) (s.setBuf []) := rfl

/-- `resetInstance` in one record update (45_hasher.md R239). -/
theorem resetInstance_eq : resetInstance s =
    { s with sponge := s.base, tweak := zeroTweak s.params, count := 0, buf := [] } := rfl

/-- `buildInstance` in one record update (45_hasher.md R231): nothing of the old instance is left. -/
theorem buildInstance_eq (cfg : Cfg) : buildInstance cfg s =
    { s with
      sponge := zeroSponge s.params
      base := zeroSponge s.params
      tweak := zeroTweak s.params
      count := 0
      buf := []
      cfg := cfg
      live := true } := rfl

end Sys2Proof.Machine
end

