-- ==== Sys2Proof/Laws/Packing.lean ====
section
/-! SUPPORT. The packing buffer (Machine/Packing.lean): one chunk of `drain` at a time, the sizes of chunks
and padded chunks, and `leb128` one group at a time. -/

namespace Sys2Proof.Machine

/-- `drain` on less than a chunk takes nothing. -/
theorem drainLoop_short (P n fuel : Nat) {b : List Byte} (h : b.length < n) :
    drainLoop P n fuel b = ([], b) := by
  cases fuel with
  | zero => rfl
  | succ fuel => simp [drainLoop, Nat.not_le.mpr h]

/-- `drain` on a chunk or more takes the first chunk. -/
theorem drainLoop_chunk (P n fuel : Nat) {b : List Byte} (h : n ≤ b.length) :
    drainLoop P n (fuel + 1) b =
      (chunkElem P (b.take n) :: (drainLoop P n fuel (b.drop n)).1,
        (drainLoop P n fuel (b.drop n)).2) := by
  simp [drainLoop, h]

/-- A chunk has at least one byte when `CFG.MAXB` is at least 1. -/
theorem one_le_chunkSize {c : Cfg} (h : 1 ≤ c.maxb) : 1 ≤ chunkSize c := by
  unfold chunkSize
  cases c.pk with
  | byteEfficient => exact h
  | circuitFriendly => exact Nat.le_refl 1

theorem maxbDefault_pos (C : Params) : 1 ≤ maxbDefault C := Nat.le_max_left _ _

/-- A padded chunk of a remainder has `CFG.MAXB` bytes (44_packing_buffer.md R203). -/
theorem paddedChunk_length {c : Cfg} {b : List Byte} (h : b.length < c.maxb) :
    (paddedChunk c b).length = c.maxb := by
  unfold paddedChunk
  cases c.pad <;> simp <;> omega

/-- The value of a zero-padded chunk is that of its bytes. -/
theorem leNat_zero_padded (b : List Byte) (n : Nat) :
    leNat (b ++ List.replicate n 0) = leNat b := by
  rw [leNat_append, leNat_replicate_zero, Nat.mul_zero, Nat.add_zero]

theorem leb128Groups_small (fuel : Nat) {v : Nat} (h : v < 128) :
    leb128Groups fuel v = [BitVec.ofNat 8 v] := by
  have hd : v / 128 = 0 := Nat.div_eq_of_lt h
  cases fuel with
  | zero => simp [leb128Groups, Nat.mod_eq_of_lt h]
  | succ fuel => simp [leb128Groups, hd, Nat.mod_eq_of_lt h]

theorem leb128Groups_large (fuel : Nat) {v : Nat} (h : 128 ≤ v) :
    leb128Groups (fuel + 1) v =
      BitVec.ofNat 8 (v % 128 + 128) :: leb128Groups fuel (v / 128) := by
  have hd : v / 128 ≠ 0 := by omega
  simp [leb128Groups, hd]

theorem leb128Groups_ne_nil (fuel v : Nat) : leb128Groups fuel v ≠ [] := by
  cases fuel with
  | zero => simp [leb128Groups]
  | succ fuel =>
    unfold leb128Groups
    split <;> simp

theorem serialize_str (C : Params) (b : List Byte) :
    serialize C .str b = tagAt C .str :: (leb128 b.length ++ b) := rfl

theorem serialize_bytes (C : Params) (b : List Byte) :
    serialize C .bytes b = tagAt C .bytes :: (leb128 b.length ++ b) := rfl

end Sys2Proof.Machine
end

