-- ==== Sys2Proof/Laws/PerInstr.lean ====
section
/-! SUPPORT. A statement about every instruction as syntax, one lemma for each constructor: no encoding has
a header that 30_encoding.md R81 calls illegal. -/

namespace Sys2Proof.Laws

open Sys2Proof.Machine

/-- The family: the header the encoder writes has a defined `OPC` and an `ARG` allowed for it. -/
def EncodeIsLegal.Statement (i : Instr) : Prop := headerLegal (encodeHeader i) = true

/-- A header is legal as its two low fields are, whatever its `LEN`. -/
theorem headerLegal_mkHeader (opc arg : Byte) (len : Len)
    (h : (definedOpcs.contains opc.toNat && argAllowed opc.toNat arg.toNat) = true) :
    headerLegal (mkHeader opc arg len) = true := by
  have ho := opc.isLt
  have ha := arg.isLt
  have hl := len.isLt
  have hn : (mkHeader opc arg len).toNat = opc.toNat + 256 * arg.toNat + 65536 * len.toNat := by
    simp only [mkHeader, BitVec.toNat_ofNat]
    omega
  have h0 : (opc.toNat + 256 * arg.toNat + 65536 * len.toNat) % 256 = opc.toNat := by omega
  have h1 : (opc.toNat + 256 * arg.toNat + 65536 * len.toNat) / 256 % 256 = arg.toNat := by omega
  simpa only [headerLegal, hn, h0, h1] using h

theorem EncodeIsLegal.status (len : Len) :
    EncodeIsLegal.Statement (.status len) := headerLegal_mkHeader _ _ _ (by decide)

theorem EncodeIsLegal.new (pk : PackMode) (pad : PadPolicy) (ovr : Bool) (len : Len) :
    EncodeIsLegal.Statement (.new pk pad ovr len) := by
  cases pk <;> cases pad <;> cases ovr <;> exact headerLegal_mkHeader _ _ _ (by decide)

theorem EncodeIsLegal.reset (len : Len) :
    EncodeIsLegal.Statement (.reset len) := headerLegal_mkHeader _ _ _ (by decide)

theorem EncodeIsLegal.digest (len : Len) :
    EncodeIsLegal.Statement (.digest len) := headerLegal_mkHeader _ _ _ (by decide)

theorem EncodeIsLegal.finalize (len : Len) :
    EncodeIsLegal.Statement (.finalize len) := headerLegal_mkHeader _ _ _ (by decide)

theorem EncodeIsLegal.count (len : Len) :
    EncodeIsLegal.Statement (.count len) := headerLegal_mkHeader _ _ _ (by decide)

theorem EncodeIsLegal.permute (w : List Nat) :
    EncodeIsLegal.Statement (.permute w) := headerLegal_mkHeader _ _ _ (by decide)

theorem EncodeIsLegal.compress (w : List Nat) :
    EncodeIsLegal.Statement (.compress w) := headerLegal_mkHeader _ _ _ (by decide)

theorem EncodeIsLegal.spAbsorb (e : List Nat) :
    EncodeIsLegal.Statement (.spAbsorb e) := headerLegal_mkHeader _ _ _ (by decide)

theorem EncodeIsLegal.spSqueeze (len : Len) :
    EncodeIsLegal.Statement (.spSqueeze len) := headerLegal_mkHeader _ _ _ (by decide)

theorem EncodeIsLegal.dsAbsorb (c : ClassCode) (e : List Nat) :
    EncodeIsLegal.Statement (.dsAbsorb c e) := by
  cases c <;> exact headerLegal_mkHeader _ _ _ (by decide)

theorem EncodeIsLegal.absorbDomain (ctx : List Byte) :
    EncodeIsLegal.Statement (.absorbDomain ctx) := headerLegal_mkHeader _ _ _ (by decide)

theorem EncodeIsLegal.updBase (e : List Nat) :
    EncodeIsLegal.Statement (.updBase e) := headerLegal_mkHeader _ _ _ (by decide)

theorem EncodeIsLegal.updScalar (b : List Byte) :
    EncodeIsLegal.Statement (.updScalar b) := headerLegal_mkHeader _ _ _ (by decide)

theorem EncodeIsLegal.updPoint (e : List Nat) :
    EncodeIsLegal.Statement (.updPoint e) := headerLegal_mkHeader _ _ _ (by decide)

theorem EncodeIsLegal.updPointInf (len : Len) :
    EncodeIsLegal.Statement (.updPointInf len) := headerLegal_mkHeader _ _ _ (by decide)

theorem EncodeIsLegal.pushTag (k : Kind) (len : Len) :
    EncodeIsLegal.Statement (.pushTag k len) := by
  cases k <;> exact headerLegal_mkHeader _ _ _ (by decide)

theorem EncodeIsLegal.pushBytes (b : List Byte) :
    EncodeIsLegal.Statement (.pushBytes b) := headerLegal_mkHeader _ _ _ (by decide)

theorem EncodeIsLegal.pushVarint (b : List Byte) :
    EncodeIsLegal.Statement (.pushVarint b) := headerLegal_mkHeader _ _ _ (by decide)

theorem EncodeIsLegal.pbExtract (len : Len) :
    EncodeIsLegal.Statement (.pbExtract len) := headerLegal_mkHeader _ _ _ (by decide)

theorem EncodeIsLegal.pbFlush (len : Len) :
    EncodeIsLegal.Statement (.pbFlush len) := headerLegal_mkHeader _ _ _ (by decide)

theorem EncodeIsLegal.updBool (b : List Byte) :
    EncodeIsLegal.Statement (.updBool b) := headerLegal_mkHeader _ _ _ (by decide)

theorem EncodeIsLegal.updU8 (b : List Byte) :
    EncodeIsLegal.Statement (.updU8 b) := headerLegal_mkHeader _ _ _ (by decide)

theorem EncodeIsLegal.updU16 (b : List Byte) :
    EncodeIsLegal.Statement (.updU16 b) := headerLegal_mkHeader _ _ _ (by decide)

theorem EncodeIsLegal.updU32 (b : List Byte) :
    EncodeIsLegal.Statement (.updU32 b) := headerLegal_mkHeader _ _ _ (by decide)

theorem EncodeIsLegal.updU64 (b : List Byte) :
    EncodeIsLegal.Statement (.updU64 b) := headerLegal_mkHeader _ _ _ (by decide)

theorem EncodeIsLegal.updU128 (b : List Byte) :
    EncodeIsLegal.Statement (.updU128 b) := headerLegal_mkHeader _ _ _ (by decide)

theorem EncodeIsLegal.updI8 (b : List Byte) :
    EncodeIsLegal.Statement (.updI8 b) := headerLegal_mkHeader _ _ _ (by decide)

theorem EncodeIsLegal.updI16 (b : List Byte) :
    EncodeIsLegal.Statement (.updI16 b) := headerLegal_mkHeader _ _ _ (by decide)

theorem EncodeIsLegal.updI32 (b : List Byte) :
    EncodeIsLegal.Statement (.updI32 b) := headerLegal_mkHeader _ _ _ (by decide)

theorem EncodeIsLegal.updI64 (b : List Byte) :
    EncodeIsLegal.Statement (.updI64 b) := headerLegal_mkHeader _ _ _ (by decide)

theorem EncodeIsLegal.updI128 (b : List Byte) :
    EncodeIsLegal.Statement (.updI128 b) := headerLegal_mkHeader _ _ _ (by decide)

theorem EncodeIsLegal.updStr (b : List Byte) :
    EncodeIsLegal.Statement (.updStr b) := headerLegal_mkHeader _ _ _ (by decide)

theorem EncodeIsLegal.updBytes (b : List Byte) :
    EncodeIsLegal.Statement (.updBytes b) := headerLegal_mkHeader _ _ _ (by decide)

end Sys2Proof.Laws
end

