-- ==== Sys2Proof/Laws/Permutation.lean ====
section
/-! SUPPORT. The vectors of the permutation engine (Machine/Permutation.lean): lengths and lanes, and the
sequence of rounds one at a time. -/

namespace Sys2Proof.Machine

@[simp] theorem vector_length (C : Params) (f : Nat → Nat) : (vector C f).length = C.width := by
  simp [vector]

theorem lane_vector (C : Params) (f : Nat → Nat) {i : Nat} (h : i < C.width) :
    lane (vector C f) i = f i := by
  simp [lane, vector, h]

/-- Two vectors of `WIDTH` lanes are equal when their lanes are. -/
theorem eq_of_lanes {C : Params} {x y : List Nat} (hx : x.length = C.width)
    (hy : y.length = C.width) (h : ∀ i, i < C.width → lane x i = lane y i) : x = y := by
  apply List.ext_getElem (hx.trans hy.symm)
  intro i h1 h2
  simpa [lane, List.getD_eq_getElem?_getD, h1, h2] using h i (hx ▸ h1)

theorem vector_lane {C : Params} {x : List Nat} (hx : x.length = C.width) :
    vector C (lane x) = x :=
  eq_of_lanes (vector_length _ _) hx fun _ h => lane_vector _ _ h

@[simp] theorem extMix_length (C : Params) (x : List Nat) : (extMix C x).length = C.width := by
  unfold extMix
  split_ifs <;> exact vector_length _ _

@[simp] theorem intMix_length (C : Params) (x : List Nat) : (intMix C x).length = C.width :=
  vector_length _ _

@[simp] theorem mdsMix_length (C : Params) (x : List Nat) : (mdsMix C x).length = C.width :=
  vector_length _ _

theorem rounds_zero (f : Nat → List Nat → List Nat) (start : Nat) (x : List Nat) :
    rounds f start 0 x = x := rfl

/-- The last round of a sequence comes after the others. -/
theorem rounds_succ (f : Nat → List Nat → List Nat) (start n : Nat) (x : List Nat) :
    rounds f start (n + 1) x = f (start + n) (rounds f start n x) := by
  simp [rounds, List.range'_concat]

/-- A property that every round gives holds after a sequence of rounds that starts with it. -/
theorem rounds_keep {p : List Nat → Prop} {f : Nat → List Nat → List Nat}
    (hf : ∀ r y, p y → p (f r y)) (start n : Nat) {x : List Nat} (hx : p x) :
    p (rounds f start n x) := by
  induction n with
  | zero => exact hx
  | succ n ih => rw [rounds_succ]; exact hf _ _ ih

@[simp] theorem fullRound_length (C : Params) (r : Nat) (x : List Nat) :
    (fullRound C r x).length = C.width := extMix_length _ _

@[simp] theorem partialRound_length (C : Params) (r : Nat) (x : List Nat) :
    (partialRound C r x).length = C.width := intMix_length _ _

@[simp] theorem classicRound_length (C : Params) (r : Nat) (x : List Nat) :
    (classicRound C r x).length = C.width := mdsMix_length _ _

/-- `permute` gives a vector of `WIDTH` lanes from one of `WIDTH` lanes. -/
theorem permute_length {C : Params} {x : List Nat} (hx : x.length = C.width) :
    (permute C x).length = C.width := by
  unfold permute
  cases C.schedule with
  | cheap =>
    let p : List Nat → Prop := fun y => y.length = C.width
    exact rounds_keep (p := p) (fun r y _ => fullRound_length C r y) _ _
      (rounds_keep (p := p) (fun r y _ => partialRound_length C r y) _ _
        (rounds_keep (p := p) (fun r y _ => fullRound_length C r y) _ _ (extMix_length C x)))
  | classic =>
    exact rounds_keep (p := fun y => y.length = C.width) (fun r y _ => classicRound_length C r y) _ _
      hx

end Sys2Proof.Machine
end

