-- ==== Sys2Proof/Laws/Sponge.lean ====
section
/-! SUPPORT. The sponge and the tweaker (Machine/Duplex.lean, Machine/Domain.lean): one pass of each loop,
and what an absorb keeps of the shape of a sponge; the values of `DOMAIN_DERIVE`. -/

namespace Sys2Proof.Machine

@[simp] theorem addLanes_nil (P i : Nat) (lanes : List Nat) : addLanes P i lanes [] = lanes := by
  cases lanes <;> rfl

theorem addLanes_cons (P i v : Nat) (lanes e : List Nat) :
    addLanes P i lanes (v :: e) =
      addLanes P (i + 1) (lanes.set i (fadd P (lane lanes i) v)) e := by
  rw [addLanes]

@[simp] theorem addLanes_length (P i : Nat) (lanes e : List Nat) :
    (addLanes P i lanes e).length = lanes.length := by
  induction e generalizing i lanes with
  | nil => simp
  | cons v e ih => rw [addLanes_cons, ih, List.length_set]

/-- A pass of the absorbing loop whose elements fit into the block is the last. -/
theorem absorbLoop_last (C : Params) (fuel : Nat) (sp : Sponge) (e : List Nat)
    (h : sp.idx + e.length ≤ C.rate) :
    absorbLoop C (fuel + 1) sp e =
      { sp with
        lanes := addLanes C.P (C.capacity + sp.idx) sp.lanes e
        idx := sp.idx + e.length } := by
  have hm : min e.length (C.rate - sp.idx) = e.length := by omega
  simp [absorbLoop, hm]

/-- A pass whose elements do not fit fills the block, permutes, and goes on from rate lane 0. -/
theorem absorbLoop_more (C : Params) (fuel : Nat) (sp : Sponge) (e : List Nat)
    (h : C.rate < sp.idx + e.length) (hi : sp.idx ≤ C.rate) :
    absorbLoop C (fuel + 1) sp e =
      absorbLoop C fuel
        { sp with
          lanes := permute C (addLanes C.P (C.capacity + sp.idx) sp.lanes
            (e.take (C.rate - sp.idx)))
          idx := 0 }
        (e.drop (C.rate - sp.idx)) := by
  have hm : min e.length (C.rate - sp.idx) = C.rate - sp.idx := by omega
  have hlt : C.rate - sp.idx < e.length := by omega
  simp [absorbLoop, hm, hlt, permuteSponge]

/-- A pass of the squeezing loop that the block can serve is the last. -/
theorem squeezeLoop_last (C : Params) (fuel : Nat) (sp : Sponge) (n : Nat)
    (h : sp.idx + n ≤ C.rate) :
    squeezeLoop C (fuel + 1) sp n =
      ((List.range n).map (fun j => lane sp.lanes (C.capacity + sp.idx + j)),
        { sp with idx := sp.idx + n }) := by
  have hm : min n (C.rate - sp.idx) = n := by omega
  simp [squeezeLoop, hm]

/-- A pass that the block cannot serve reads what is left of it, permutes, and goes on. -/
theorem squeezeLoop_more (C : Params) (fuel : Nat) (sp : Sponge) (n : Nat)
    (h : C.rate < sp.idx + n) (hi : sp.idx ≤ C.rate) :
    squeezeLoop C (fuel + 1) sp n =
      let r := squeezeLoop C fuel { sp with lanes := permute C sp.lanes, idx := 0 }
        (n - (C.rate - sp.idx))
      ((List.range (C.rate - sp.idx)).map (fun j => lane sp.lanes (C.capacity + sp.idx + j)) ++ r.1,
        r.2) := by
  have hm : min n (C.rate - sp.idx) = C.rate - sp.idx := by omega
  have hlt : C.rate - sp.idx < n := by omega
  simp [squeezeLoop, hm, hlt, permuteSponge]

/-- An absorb keeps the number of lanes. -/
theorem absorbLoop_lanes_length {C : Params} (fuel : Nat) {sp : Sponge} (e : List Nat)
    (h : sp.lanes.length = C.width) : (absorbLoop C fuel sp e).lanes.length = C.width := by
  induction fuel generalizing sp e with
  | zero => exact h
  | succ fuel ih =>
    unfold absorbLoop
    dsimp only
    split
    · exact ih _ (permute_length (by simpa using h))
    · simpa using h

theorem spAbsorb_lanes_length {C : Params} {sp : Sponge} (e : List Nat)
    (h : sp.lanes.length = C.width) : (spAbsorb C sp e).lanes.length = C.width := by
  cases e with
  | nil => exact h
  | cons v e =>
    apply absorbLoop_lanes_length
    unfold absorbStart
    cases sp.mode with
    | squeezing =>
      dsimp only
      split
      · exact permute_length h
      · exact h
    | absorbing =>
      dsimp only
      split
      · exact permute_length h
      · exact h

/-! ### The lane-tweak transform -/

@[simp] theorem consumeTweak_cur (C : Params) (t : Tweak) : (consumeTweak C t).cur = t.cur := by
  unfold consumeTweak
  split <;> rfl

/-- A tweak with one lane left clears itself (42_domain_separation.md R152). -/
theorem consumeTweak_last (C : Params) {t : Tweak} (h : t.rem ≤ 1) :
    consumeTweak C t =
      { cur := t.cur, present := false, vec := List.replicate C.rate 0, rem := 0, align := false } := by
  have : t.rem - 1 = 0 := by omega
  simp [consumeTweak, this]

theorem consumeTweak_more (C : Params) {t : Tweak} (h : 1 < t.rem) :
    consumeTweak C t = { t with rem := t.rem - 1, align := false } := by
  have : t.rem - 1 ≠ 0 := by omega
  simp [consumeTweak, this]

/-- A batch in two parts is two passes, the second at the positions after the first. -/
theorem tweakLoop_append (C : Params) (c : ClassCode) (cur p : Nat) (t : Tweak) (a b : List Nat) :
    tweakLoop C c cur p t (a ++ b) =
      ((tweakLoop C c cur p t a).1 ++
          (tweakLoop C c cur (p + a.length) (tweakLoop C c cur p t a).2 b).1,
        (tweakLoop C c cur (p + a.length) (tweakLoop C c cur p t a).2 b).2) := by
  induction a generalizing p t with
  | nil => simp [tweakLoop]
  | cons v a ih =>
    have hp : p + 1 + a.length = p + (a.length + 1) := by omega
    simp [tweakLoop, ih, hp]

theorem tweakLoop_length (C : Params) (c : ClassCode) (cur p : Nat) (t : Tweak) (e : List Nat) :
    (tweakLoop C c cur p t e).1.length = e.length := by
  induction e generalizing p t with
  | nil => rfl
  | cons v e ih => simp [tweakLoop, ih]

/-! ### The values of `DOMAIN_DERIVE` -/

/-- Each value is a canonical field element. -/
theorem domainDerive_lt {C : Params} (h : 0 < C.P) (ctx : List Byte) (l : Nat) :
    domainDerive C ctx l < C.P := Nat.mod_lt _ h

/-- A written-out value is the one used. -/
theorem domainDerive_of_written {C : Params} {ctx : List Byte} {l v : Nat}
    (h : writtenDomainValue C ctx l = some v) : domainDerive C ctx l = v % C.P := by
  simp [domainDerive, h]

/-- Where no value is written out, the constant without a value is used. -/
theorem domainDerive_of_not_written {C : Params} {ctx : List Byte} {l : Nat}
    (h : writtenDomainValue C ctx l = none) :
    domainDerive C ctx l = Config.domainDerive C.P ctx l % C.P := by
  simp [domainDerive, h]

/-- No value is written out for a context that is not listed, nor for a lane past the end of its list. -/
theorem writtenDomainValue_eq_none_iff (C : Params) (ctx : List Byte) (l : Nat) :
    writtenDomainValue C ctx l = none ↔
      ∀ v, C.domainValues.lookup ctx = some v → v.length ≤ l := by
  cases h : C.domainValues.lookup ctx <;> simp [writtenDomainValue, h]

end Sys2Proof.Machine
end

