-- ==== Sys2Proof/Tests/Slice0.lean ====
section
/-! SUPPORT. The tests of the model: terms that `Instr.wf` refuses, one word for each command written out
from the table at the end of 95_test_vectors.md section 4.7, the values that 95_test_vectors.md derives
from the rules, and for each statement of Certificates/Slice0/Obligations.lean with hypotheses a
theorem `witness_<statement>` that meets them. -/

namespace Sys2Proof.Tests

open Sys2Proof.Machine

/-! ### The toy parameter sets of 95_test_vectors.md section 2 -/

/-- What the toy sets have in common: the tables computed from the sizes. -/
def toy (P d rate cap rf rp scalarBits : Nat) (schedule : Schedule) (diag : List Nat)
    (mds m4 : List (List Nat)) : Params :=
  { P := P, scalarBits := scalarBits, rate := rate, capacity := cap, width := rate + cap
    rf := rf, rp := rp, d := d, schedule := schedule
    rc := (List.range (rf + rp)).map fun r =>
      (List.range (rate + cap)).map fun i => 100 * (r + 1) + i
    diag := diag, mds := mds, m4 := m4
    classConst := (List.range 5).map fun c => (List.range rate).map fun l => 1000 * (c + 1) + l
    tag := tagDefault, sqzAbsPermute := false, bufCap := none
    domainValues := [([0x41], [7984, 15903, 23822]), ([], [7919, 15838])] }

def toyA : Params := toy 2147483647 5 2 1 4 3 31 .cheap [2, 3, 5] [] []

def toyM4 : List (List Nat) := [[5, 7, 1, 3], [4, 6, 1, 1], [1, 3, 5, 7], [1, 1, 4, 6]]

def toyB : Params := toy 18446744069414584321 7 3 1 4 2 64 .cheap [2, 3, 5, 7] [] toyM4

def toyC : Params := toy 2147483647 5 6 2 4 2 31 .cheap [2, 3, 5, 7, 11, 13, 17, 19] [] toyM4

def toyD : Params := toy 65537 3 1 1 2 1 17 .cheap [2, 3] [] []

def toyE : Params := toy 2147483647 5 2 1 4 3 31 .classic [] [[2, 3, 1], [1, 2, 3], [3, 1, 2]] []

/-- The block with a parameter set, right after `NEW` in the default configuration. -/
def fresh (C : Params) : State := { State.resetWith C with live := true, fault := false, err := 0 }

/-- The state a command leaves. -/
def after (i : Instr) (s : State) : State :=
  match exec i s with
  | .next t => t
  | .fault _ => s
  | .refused _ => s

/-- The state one step leaves, with these bytes on `DIN`. -/
def fed (bytes : List Byte) (s : State) : State :=
  match step { s with din := bytes } with
  | .next t => t
  | .fault _ => s
  | .refused _ => s

theorem test_toyA_wf : paramsWF toyA = true := by decide
theorem test_toyB_wf : paramsWF toyB = true := by decide
theorem test_toyE_wf : paramsWF toyE = true := by decide

/-! ### Well-formedness (Slice0 smoke): each check of `Instr.wf` refuses an ill-formed term -/

theorem test_wf_element_too_wide : (Instr.updBase [4294967296]).wf 4 = false := by decide
theorem test_wf_element_at_the_bound : (Instr.updBase [4294967295]).wf 4 = true := by decide
theorem test_wf_too_many_elements (e : List Nat) (h : e.length = 65536) :
    (Instr.spAbsorb e).wf 4 = false := by
  simp [Instr.wf, elemsFit, lenFits, h]
theorem test_wf_too_many_bytes (b : List Byte) (h : b.length = 65536) :
    (Instr.pushBytes b).wf 4 = false := by
  simp [Instr.wf, bytesFit, lenFits, h]
theorem test_wf_longest_payload (b : List Byte) (h : b.length = 65535) :
    (Instr.updBytes b).wf 4 = true := by
  simp [Instr.wf, bytesFit, lenFits, h]

/-! ### Decoding: the headers of 95_test_vectors.md section 4.7, byte by byte -/

theorem test_decode_status :
    (decode 4 [0x00, 0x00, 0x00, 0x00]).result = .ok (.status 0) :=
  by decide
theorem test_decode_new :
    (decode 4 [0x01, 0x07, 0x09, 0x00]).result = .ok (.new .circuitFriendly .lengthPrefix true 9) :=
  by decide
theorem test_decode_reset : (decode 4 [0x02, 0x00, 0x00, 0x00]).result = .ok (.reset 0) := by decide
theorem test_decode_digest :
    (decode 4 [0x03, 0x00, 0x00, 0x00]).result = .ok (.digest 0) :=
  by decide
theorem test_decode_finalize :
    (decode 4 [0x04, 0x00, 0x00, 0x00]).result = .ok (.finalize 0) :=
  by decide
theorem test_decode_count : (decode 4 [0x05, 0x00, 0x00, 0x00]).result = .ok (.count 0) := by decide
theorem test_decode_permute :
    (decode 4 [0x10, 0x00, 0x03, 0x00, 0x00, 0x00, 0x00, 0x00, 0x01, 0x00, 0x00, 0x00, 0x02,
      0x00, 0x00, 0x00]).result = .ok (.permute [0, 1, 2]) :=
  by decide
theorem test_decode_compress :
    (decode 4 [0x11, 0x00, 0x03, 0x00, 0x01, 0x00, 0x00, 0x00, 0x02, 0x00, 0x00, 0x00, 0x03,
      0x00, 0x00, 0x00]).result = .ok (.compress [1, 2, 3]) :=
  by decide
theorem test_decode_spAbsorb :
    (decode 4 [0x20, 0x00, 0x03, 0x00, 0x01, 0x00, 0x00, 0x00, 0x02, 0x00, 0x00, 0x00, 0x03,
      0x00, 0x00, 0x00]).result = .ok (.spAbsorb [1, 2, 3]) :=
  by decide
theorem test_decode_spSqueeze :
    (decode 4 [0x21, 0x00, 0x03, 0x00]).result = .ok (.spSqueeze 3) :=
  by decide
theorem test_decode_dsAbsorb :
    (decode 4 [0x30, 0x04, 0x02, 0x00, 0x01, 0x00, 0x00, 0x00, 0x02, 0x00, 0x00, 0x00]).result =
      .ok (.dsAbsorb .primitive [1, 2]) := by decide
theorem test_decode_absorbDomain :
    (decode 4 [0x31, 0x00, 0x01, 0x00, 0x41]).result = .ok (.absorbDomain [0x41]) :=
  by decide
theorem test_decode_updBase :
    (decode 4 [0x40, 0x00, 0x01, 0x00, 0xFE, 0xFF, 0xFF, 0x7F]).result =
      .ok (.updBase [2147483646]) := by decide
theorem test_decode_updScalar :
    (decode 4 [0x41, 0x00, 0x04, 0x00, 0xFF, 0xFF, 0xFF, 0x7F]).result =
      .ok (.updScalar [0xFF, 0xFF, 0xFF, 0x7F]) := by decide
theorem test_decode_updPoint :
    (decode 4 [0x42, 0x00, 0x02, 0x00, 0x03, 0x00, 0x00, 0x00, 0x04, 0x00, 0x00, 0x00]).result =
      .ok (.updPoint [3, 4]) := by decide
theorem test_decode_updPointInf :
    (decode 4 [0x42, 0x01, 0x00, 0x00]).result = .ok (.updPointInf 0) :=
  by decide
theorem test_decode_pushTag :
    (decode 4 [0x50, 0x0C, 0x00, 0x00]).result = .ok (.pushTag .str 0) :=
  by decide
theorem test_decode_pushBytes :
    (decode 4 [0x51, 0x00, 0x02, 0x00, 0x02, 0x01]).result = .ok (.pushBytes [2, 1]) :=
  by decide
theorem test_decode_pushVarint :
    (decode 4 [0x52, 0x00, 0x08, 0x00, 0x2C, 0x01, 0x00, 0x00, 0x00, 0x00, 0x00, 0x00]).result =
      .ok (.pushVarint [0x2C, 1, 0, 0, 0, 0, 0, 0]) := by decide
theorem test_decode_pbExtract :
    (decode 4 [0x53, 0x00, 0x00, 0x00]).result = .ok (.pbExtract 0) :=
  by decide
theorem test_decode_pbFlush :
    (decode 4 [0x54, 0x00, 0x00, 0x00]).result = .ok (.pbFlush 0) :=
  by decide
theorem test_decode_updBool :
    (decode 4 [0x60, 0x01, 0x01, 0x00, 0x01]).result = .ok (.updBool [0x01]) :=
  by decide
theorem test_decode_updU8 :
    (decode 4 [0x60, 0x02, 0x01, 0x00, 0x09]).result = .ok (.updU8 [0x09]) :=
  by decide
theorem test_decode_updU16 :
    (decode 4 [0x60, 0x03, 0x02, 0x00, 0x02, 0x01]).result = .ok (.updU16 [0x02, 0x01]) :=
  by decide
theorem test_decode_updU32 :
    (decode 4 [0x60, 0x04, 0x04, 0x00, 0xEF, 0xBE, 0xAD, 0xDE]).result =
      .ok (.updU32 [0xEF, 0xBE, 0xAD, 0xDE]) := by decide
theorem test_decode_updU64 :
    (decode 4 [0x60, 0x05, 0x08, 0x00, 0x01, 0x00, 0x00, 0x00, 0x00, 0x00, 0x00, 0x00]).result =
      .ok (.updU64 [0x01, 0x00, 0x00, 0x00, 0x00, 0x00, 0x00, 0x00]) := by decide
theorem test_decode_updU128 :
    (decode 4 [0x60, 0x06, 0x10, 0x00, 0x01, 0x00, 0x00, 0x00, 0x00, 0x00, 0x00, 0x00, 0x00,
      0x00, 0x00, 0x00, 0x00, 0x00, 0x00, 0x00]).result =
      .ok (.updU128 (0x01 :: List.replicate 15 0x00)) := by decide
theorem test_decode_updI8 :
    (decode 4 [0x60, 0x07, 0x01, 0x00, 0xFF]).result = .ok (.updI8 [0xFF]) :=
  by decide
theorem test_decode_updI16 :
    (decode 4 [0x60, 0x08, 0x02, 0x00, 0xFE, 0xFF]).result = .ok (.updI16 [0xFE, 0xFF]) :=
  by decide
theorem test_decode_updI32 :
    (decode 4 [0x60, 0x09, 0x04, 0x00, 0xFF, 0xFF, 0xFF, 0xFF]).result =
      .ok (.updI32 [0xFF, 0xFF, 0xFF, 0xFF]) := by decide
theorem test_decode_updI64 :
    (decode 4 [0x60, 0x0A, 0x08, 0x00, 0x00, 0x00, 0x00, 0x00, 0x00, 0x00, 0x00, 0x80]).result =
      .ok (.updI64 [0x00, 0x00, 0x00, 0x00, 0x00, 0x00, 0x00, 0x80]) := by decide
theorem test_decode_updI128 :
    (decode 4 [0x60, 0x0B, 0x10, 0x00, 0xFF, 0xFF, 0xFF, 0xFF, 0xFF, 0xFF, 0xFF, 0xFF, 0xFF,
      0xFF, 0xFF, 0xFF, 0xFF, 0xFF, 0xFF, 0xFF]).result =
      .ok (.updI128 (List.replicate 16 0xFF)) := by decide
theorem test_decode_updStr :
    (decode 4 [0x60, 0x0C, 0x02, 0x00, 0x68, 0x69]).result = .ok (.updStr [0x68, 0x69]) :=
  by decide
theorem test_decode_updBytes :
    (decode 4 [0x60, 0x0D, 0x00, 0x00]).result = .ok (.updBytes []) :=
  by decide

theorem test_decode_undefined_opcode :
    (decode 4 [0x07, 0x00, 0x00, 0x00]).result = .error (.undefinedOpc 0x07) := by decide
theorem test_decode_new_with_bit_3 :
    (decode 4 [0x01, 0x08, 0x00, 0x00]).result = .error (.illegalArg 0x01 0x08) := by decide
theorem test_decode_kind_zero :
    (decode 4 [0x50, 0x00, 0x00, 0x00]).result = .error (.illegalArg 0x50 0x00) := by decide
theorem test_decode_kind_fourteen :
    (decode 4 [0x60, 0x0E, 0x01, 0x00, 0x00]).result = .error (.illegalArg 0x60 0x0E) := by decide
theorem test_decode_class_five :
    (decode 4 [0x30, 0x05, 0x00, 0x00]).result = .error (.illegalArg 0x30 0x05) := by decide
theorem test_decode_no_payload_when_arg_bit_0_is_set :
    (decode 4 [0x42, 0x01, 0x02, 0x00, 0x99]).rest = [0x99] := by decide

/-! ### Field, permutation and sponge (95_test_vectors.md sections 4.1, 4.2) -/

theorem test_sbox_degree_5 : sbox toyA 100 = 1410065412 := by decide
theorem test_sbox_degree_7 : sbox toyB 18446744069414584319 = 18446744069414584193 := by decide
theorem test_sbox_degree_3 : sbox toyD 65535 = 65529 := by decide
theorem test_extMix_width_2 : extMix toyD [65536, 65536] = [65534, 65534] := by decide
theorem test_extMix_width_3 : extMix toyA [1, 2, 3] = [7, 8, 9] := by decide
theorem test_extMix_width_4 : extMix toyB [1, 2, 3, 4] = [34, 23, 50, 39] := by decide
theorem test_extMix_width_8 :
    extMix toyC [1, 2, 3, 4, 5, 6, 7, 8] = [166, 117, 214, 165, 230, 165, 278, 213] := by decide
theorem test_intMix : intMix toyA [1, 2, 3] = [8, 12, 21] := by decide
theorem test_full_round :
    fullRound toyA 0 [3, 4, 5] = [581690537, 1751765419, 866983454] := by decide
theorem test_partial_round :
    partialRound toyA 2 [1650608084, 1875110229, 1356139077] =
      [1008832782, 1673323544, 681204595] := by decide
theorem test_permute_cheap :
    permute toyA [0, 1, 2] = [689548744, 42767785, 1957744822] := by decide
theorem test_permute_classic :
    permute toyE [0, 1, 2] = [1243384572, 626487141, 736916115] := by decide

/-- V1, V2: a full block is permuted only when more comes. -/
theorem test_sponge_fills_the_block :
    spAbsorb toyA ⟨[0, 0, 0], .absorbing, 0⟩ [1, 2] = ⟨[0, 1, 2], .absorbing, 2⟩ := by decide
theorem test_sponge_permutes_a_full_block :
    spAbsorb toyA ⟨[0, 1, 2], .absorbing, 2⟩ [3] =
      ⟨[689548744, 42767788, 1957744822], .absorbing, 1⟩ := by decide
/-- V7: three elements squeezed from rate 2. -/
theorem test_sponge_squeezes_over_blocks :
    spSqueeze toyA ⟨[0, 0, 0], .absorbing, 0⟩ 3 =
      ([1055026059, 261877819, 1878682816],
        ⟨[966743239, 1878682816, 2133421479], .squeezing, 1⟩) := by decide
theorem test_sponge_absorbs_after_squeezing :
    spAbsorb toyA ⟨[206730263, 1493444281, 2128798920], .squeezing, 1⟩ [5] =
      ⟨[206730263, 1493444286, 2128798920], .absorbing, 1⟩ := by decide
theorem test_sponge_absorbs_after_squeezing_with_a_permutation :
    spAbsorb { toyA with sqzAbsPermute := true }
        ⟨[206730263, 1493444281, 2128798920], .squeezing, 1⟩ [5] =
      ⟨[1936465715, 1744285668, 1060765487], .absorbing, 1⟩ := by decide
/-- K4: the tweak waits for lane 0, then one block gets it. -/
theorem test_tweak_waits_for_lane_0 :
    dsTransform toyA .base ⟨1, true, [7984, 15903], 2, true⟩ [1, 1, 1, 1] =
      ([1002, 8985, 16905, 1001], ⟨1, false, [0, 0], 0, false⟩) := by decide
/-- K11: a part of the tweak is used up. -/
theorem test_tweak_stays_pending :
    dsTransform toyA .scalar ⟨0, true, [7984, 15903], 2, true⟩ [1] =
      ([9985], ⟨1, true, [7984, 15903], 1, false⟩) := by decide
theorem test_leb128_two_groups : leb128 300 = [0xAC, 0x02] := by decide
theorem test_leb128_boundary : leb128 128 = [0x80, 0x01] := by decide
theorem test_leb128_zero : leb128 0 = [0x00] := by decide
theorem test_drain :
    drain toyA ⟨.byteEfficient, .zero, 2⟩ [1, 2, 3] = ([513], [3]) := by decide
theorem test_flush_length_prefix :
    flushList toyB ⟨.byteEfficient, .lengthPrefix, 7⟩ [1, 2, 3] = [50462979] := by decide
theorem test_flush_wide_chunk_is_reduced :
    flushList toyA ⟨.byteEfficient, .zero, 4⟩ [0xFF, 0xFF, 0xFF, 0xFF] = [1] := by decide

/-! ### Commands (95_test_vectors.md sections 4.1 to 4.7) -/

theorem test_permute_answers :
    (after (.permute [0, 1, 2]) (State.resetWith toyA)).dout =
      [0x00, 0xC8, 0xAD, 0x19, 0x29, 0xA9, 0x95, 0x8C, 0x02, 0xB6, 0xD0, 0xB0, 0x74] := by decide
theorem test_permute_refuses_P :
    (after (.permute [0, 2147483647, 0]) (fresh toyA)).dout = [0x02] := by decide
theorem test_compress_answers :
    (after (.compress [1, 2, 3]) (fresh toyB)).dout =
      [0x00, 0xA5, 0xB7, 0xDA, 0x75, 0xB1, 0x76, 0x61, 0x6E] := by decide
/-- The width is checked before `LEN`. -/
theorem test_compress_width_first :
    (after (.compress [1, 2]) (fresh toyA)).dout = [0x06] := by decide
theorem test_spAbsorb :
    (after (.spAbsorb [1, 2, 3]) (fresh toyA)).sponge =
      ⟨[689548744, 42767788, 1957744822], .absorbing, 1⟩ := by decide
theorem test_spSqueeze :
    (after (.spSqueeze 1) (fresh toyA)).sponge =
      ⟨[817321142, 1055026059, 261877819], .squeezing, 1⟩ := by decide
theorem test_spSqueeze_nothing_permutes :
    (after (.spSqueeze 0) (fresh toyA)).sponge =
      ⟨[817321142, 1055026059, 261877819], .squeezing, 0⟩ := by decide
theorem test_dsAbsorb :
    (after (.dsAbsorb .primitive [1, 2]) (fresh toyA)).sponge =
      ⟨[0, 5001, 5003], .absorbing, 2⟩ := by decide
theorem test_dsAbsorb_counts :
    (after (.dsAbsorb .primitive [1, 2]) { fresh toyA with count := 0xFFFFFFFFFFFFFFFF }).count = 1 := by
  decide
theorem test_absorbDomain :
    (after (.absorbDomain [0x41]) (fresh toyA)).tweak = ⟨0, true, [7984, 15903], 2, true⟩ := by decide
theorem test_updBase :
    (after (.updBase [2147483646]) (fresh toyA)).sponge = ⟨[0, 999, 0], .absorbing, 1⟩ := by decide
theorem test_updBase_refuses_P :
    (after (.updBase [2147483647]) (fresh toyA)).dout = [0x02] := by decide
theorem test_updScalar_reduces :
    (after (.updScalar [0xFF, 0xFF, 0xFF, 0xFF]) (fresh toyA)).sponge.lanes = [0, 2001, 0] := by decide
theorem test_updPoint :
    (after (.updPoint [3, 4]) (fresh toyA)).sponge = ⟨[0, 3003, 3005], .absorbing, 2⟩ := by decide
theorem test_updPointInf :
    (after (.updPointInf 0) (fresh toyA)).sponge.lanes = [0, 4000, 0] := by decide
theorem test_updPointInf_len :
    (after (.updPointInf 2) (fresh toyA)).dout = [0x02] := by decide
theorem test_pushTag : (after (.pushTag .u16 0) (fresh toyA)).buf = [0x03] := by decide
theorem test_pushBytes :
    (after (.pushBytes [2, 1]) { fresh toyA with buf := [3] }).buf = [3, 2, 1] := by decide
theorem test_pushBytes_full :
    (after (.pushBytes [2, 1]) (fresh { toyA with bufCap := some 1 })).dout = [0x07] := by decide
theorem test_pushVarint :
    (after (.pushVarint [0x2C, 1, 0, 0, 0, 0, 0, 0]) (fresh toyA)).buf = [0xAC, 0x02] := by decide
theorem test_pbExtract :
    (after (.pbExtract 0) { fresh toyA with buf := [3, 2, 1] }).buf = [1] := by decide
theorem test_pbFlush :
    (after (.pbFlush 0) { fresh toyA with buf := [3, 2, 1] }).sponge.lanes = [0, 5515, 5002] := by
  decide
theorem test_updBool :
    (after (.updBool [1]) (fresh toyA)).sponge.lanes = [0, 5257, 0] := by decide
theorem test_updBool_two : (after (.updBool [2]) (fresh toyA)).dout = [0x02] := by decide
theorem test_updU8 : (after (.updU8 [9]) (fresh toyA)).sponge.lanes = [0, 7306, 0] := by decide
theorem test_updU16 : (after (.updU16 [2, 1]) (fresh toyA)).sponge.lanes = [0, 5515, 0] := by decide
theorem test_updU16_remainder : (after (.updU16 [2, 1]) (fresh toyA)).buf = [1] := by decide
theorem test_updU32 :
    (after (.updU32 [0xEF, 0xBE, 0xAD, 0xDE]) (fresh toyA)).sponge.lanes = [0, 66188, 49479] := by
  decide
theorem test_updU64 :
    (after (.updU64 [1, 0, 0, 0, 0, 0, 0, 0]) (fresh toyB)).sponge.lanes = [0, 5261, 0, 0] := by decide
theorem test_updU128 :
    (after (.updU128 (1 :: List.replicate 15 0)) (fresh toyA)).count = 8 := by decide
theorem test_updI8 : (after (.updI8 [0xFF]) (fresh toyA)).sponge.lanes = [0, 70287, 0] := by decide
theorem test_updI16 :
    (after (.updI16 [0xFE, 0xFF]) (fresh toyA)).sponge.lanes = [0, 70032, 0] := by decide
theorem test_updI32 :
    (after (.updI32 [0xFF, 0xFF, 0xFF, 0xFF]) (fresh toyA)).sponge.lanes = [0, 70289, 70536] := by
  decide
theorem test_updI64 :
    (after (.updI64 [0, 0, 0, 0, 0, 0, 0, 0x80]) (fresh toyA)).buf = [0x80] := by decide
theorem test_updI128 :
    (after (.updI128 (List.replicate 16 0xFF)) (fresh toyA)).buf = [0xFF] := by decide
theorem test_updStr :
    (after (.updStr []) (fresh toyA)).sponge.lanes = [0, 5012, 0] := by decide
theorem test_updBytes :
    (after (.updBytes [0x74]) { fresh toyA with buf := [] }).buf = [0x74] := by decide
theorem test_status : (after (.status 0) (fresh toyA)).dout = [0x00, 0x01, 0x00] := by decide
theorem test_new_override :
    (after (.new .circuitFriendly .lengthPrefix true 256) (State.resetWith toyA)).cfg =
      ⟨.circuitFriendly, .lengthPrefix, 256⟩ := by decide
theorem test_new_override_too_large :
    (after (.new .byteEfficient .zero true 257) (fresh toyA)).dout = [0x02] := by decide
theorem test_reset :
    (after (.reset 0) { fresh toyA with sponge := ⟨[1, 2, 3], .squeezing, 2⟩ }).sponge =
      ⟨[0, 0, 0], .absorbing, 0⟩ := by decide
/-- The digest of `UPD_U16 0x0102` after `UPD_BASE 7` (section 5, P1, step 6). -/
theorem test_digest :
    (after (.digest 0)
        { fresh toyA with
          sponge := ⟨[0, 1007, 5516], .absorbing, 2⟩, tweak := ⟨0, false, [0, 0], 0, false⟩
          buf := [1] }).dout =
      [0x00, 0x18, 0x6E, 0x2C, 0x68] := by decide +kernel
theorem test_finalize_of_nothing :
    (after (.finalize 0) (fresh toyA)).dout = [0x00, 0x8B, 0x6B, 0xE2, 0x3E] := by decide
theorem test_finalize_ends_the_instance : (after (.finalize 0) (fresh toyA)).live = false := by decide
theorem test_count :
    (after (.count 0) { fresh toyA with count := 5 }).dout = [0, 5, 0, 0, 0, 0, 0, 0, 0] := by decide

/-! ### Errors and the port (95_test_vectors.md section 4.7) -/

theorem test_not_live : (fed [0x03, 0, 0, 0] (State.resetWith toyA)).dout = [0x03] := by decide
/-- `ARG` is checked before `LIVE`. -/
theorem test_arg_before_live : (fed [0x03, 0x01, 0, 0] (State.resetWith toyA)).dout = [0x01] := by
  decide
theorem test_scalar_width :
    (fed [0x01, 0, 0, 0] (State.resetWith { toyA with scalarBits := 32 })).dout = [0x05] := by decide
theorem test_params_fault :
    (fed [0, 0, 0, 0] (State.resetWith { toyA with rf := 3 })).dout = [0x00, 0x02, 0x04] := by decide
/-- While `FAULT = 1` an illegal header answers `E_FAULTED`. -/
theorem test_faulted_comes_first :
    (fed [0x77, 0, 0, 0] { State.resetWith toyA with fault := true, err := 3 }).dout = [0x08] := by
  decide
theorem test_rst_clears_the_fault :
    (fed [0x77] { fresh toyA with fault := true, err := 3, rst := true }).fault = false := by decide
theorem test_step_waits :
    (fed [0x40, 0, 1, 0, 7, 0, 0] (fresh toyA)).din = [0x40, 0, 1, 0, 7, 0, 0] := by decide
theorem test_step_consumes_one_command :
    (fed [0x40, 0, 1, 0, 7, 0, 0, 0, 0x05] (fresh toyA)).din = [0x05] := by decide

/-! ### Witnesses: states and operands that meet the hypotheses of each statement -/

theorem canonical_iff (P : Nat) (x : List Nat) : Canonical P x ↔ x.all (· < P) = true := by
  simp [Canonical]

theorem fresh_sponge_ok : SpongeOk toyA (zeroSponge toyA) :=
  ⟨⟨rfl, (canonical_iff _ _).mpr (by decide)⟩, by decide⟩

theorem fresh_tweak_ok : TweakOk toyA (zeroTweak toyA) where
  cur_lt := by decide
  vec_length := by decide
  vec_canonical := (canonical_iff _ _).mpr (by decide)
  rem_pos := by decide
  rem_le := by decide
  aligned := by decide
  cleared := by decide

/-- A fresh instance has the invariant, with anything on its ports. -/
theorem fresh_inv (din dout : List Byte) : { fresh toyA with din := din, dout := dout }.Inv where
  err := ⟨fun _ => rfl, fun _ => rfl⟩
  params := fun h => absurd (test_toyA_wf.symm.trans h) (by decide)
  ok := fun _ =>
    { sponge := fresh_sponge_ok
      base := rfl
      tweak := fresh_tweak_ok
      maxb := show 1 ≤ maxbDefault toyA from by decide
      buf := fun _ h => absurd h (by simp [fresh, State.resetWith, toyA, toy])
      dead := fun h => absurd h (by simp [fresh]) }

theorem fresh_facade : FacadeOk (fresh toyA) := ⟨rfl, rfl, by decide⟩

theorem fresh_ready (C : Params) : (fresh C).Ready := ⟨rfl, rfl⟩

/-- Room for the bytes in an unbounded buffer, and up to the last byte of a bounded one. -/
theorem fits_unbounded (n : Nat) : Fits (fresh toyA) n := fun _ h => absurd h (by
  simp [fresh, State.resetWith, toyA, toy])
theorem fits_bounded (n : Nat) : Fits (fresh { toyA with bufCap := some n }) n := fun cap h => by
  simp only [fresh, State.resetWith, Option.some.injEq] at h
  simp [fresh, State.resetWith, ← h]

theorem witness_LittleEndianBytes : (255 : Nat) < 256 ^ 1 ∧ (65535 : Nat) < 256 ^ 2 := by decide

theorem witness_DecodeOfEncodeIsTheCommand :
    (Instr.permute [0, 1, 4294967295]).wf 4 = true ∧ (Instr.new .byteEfficient .zero true 65535).wf 4 = true
      ∧ (Instr.updStr [0x68, 0x69]).wf 4 = true := by decide

theorem witness_EncodeOfDecodeIsTheBytes :
    (decode 4 [0x60, 0x03, 0x02, 0x00, 0x02, 0x01, 0x99]).result = .ok (.updU16 [0x02, 0x01])
      ∧ (decode 4 [0x60, 0x03, 0x02, 0x00, 0x02, 0x01, 0x99]).complete = true := by decide

/-- The host has sent these bytes. -/
def sent (bytes : List Byte) (s : State) : State := { s with din := bytes }

theorem witness_IllegalHeadersRaiseIllegal :
    (let h : Header := 0x00010242
     let s := sent (bytesLE h.toNat 4 ++ [9, 9, 9, 9]) (fresh toyA)
     s.rst = false ∧ s.din = bytesLE h.toNat 4 ++ [9, 9, 9, 9]
       ∧ payloadBytes (feBytes s.params) h ≤ 4 ∧ headerLegal h = false ∧ s.fault = false)
    ∧ (let h : Header := 0x00000077
       let s := sent (bytesLE h.toNat 4 ++ [5]) { fresh toyA with fault := true, err := 3 }
       s.rst = false ∧ s.din = bytesLE h.toNat 4 ++ [5]
         ∧ payloadBytes (feBytes s.params) h ≤ 1 ∧ headerLegal h = false ∧ s.fault = true)
    ∧ (let h : Header := 0x00020142
       let s := sent (bytesLE h.toNat 4) (fresh toyA)
       s.rst = false ∧ s.din = bytesLE h.toNat 4 ++ []
         ∧ payloadBytes (feBytes s.params) h ≤ 0 ∧ headerLegal h = true) := by decide

theorem witness_StepRunsTheDecodedCommand :
    let s := sent [0x40, 0x00, 0x01, 0x00, 7, 0, 0, 0, 0x05] (fresh toyA)
    s.rst = false ∧ (decode (feBytes s.params) s.din).result = .ok (.updBase [7])
      ∧ (decode (feBytes s.params) s.din).complete = true
      ∧ (decode (feBytes s.params) s.din).rest = [0x05] := by decide

theorem witness_StepWaitsForAWholeCommand :
    let s := sent [0x40, 0x00, 0x01, 0x00, 7, 0, 0] (fresh toyA)
    s.rst = false ∧ (decode (feBytes s.params) s.din).complete = false := by decide

theorem witness_HardwareResetValues :
    (let s := { fresh toyA with rst := true }
     s.rst = true ∧ paramsWF s.params = true)
    ∧ (let s := { fresh { toyA with d := 4 } with rst := true }
       s.rst = true ∧ paramsWF s.params = false) := by decide

theorem witness_ResetStateIsHardwareReset :
    let s := { State.reset with rst := true, live := true, count := 7 }
    s.rst = true ∧ s.params = Config.params ∧ s.dout = [] := ⟨rfl, rfl, rfl⟩

theorem witness_MalformedParamsFaultTheBlock :
    paramsWF { toyA with rf := 3 } = false ∧ paramsWF { toyA with rate := 0 } = false
      ∧ Instr.status 1 ≠ .status 0 ∧ Instr.permute [0, 1, 2] ≠ .status 0 := by decide

theorem witness_FaultIsSticky :
    ({ fresh toyA with fault := true, err := 3 } : State).fault = true
      ∧ Instr.new .byteEfficient .zero false 0 ≠ .status 0 := by decide

theorem witness_StatusAtThePort :
    (let s := sent [0x00, 0x01, 0x00, 0x00, 0x05] { fresh toyA with fault := true, err := 3 }
     s.rst = false ∧ s.din = bytesLE (mkHeader 0x00 1 0).toNat 4 ++ [0x05] ∧ s.fault = true)
    ∧ (let s := sent [0x00, 0x01, 0x00, 0x00] (fresh toyA)
       s.rst = false ∧ s.din = bytesLE (mkHeader 0x00 1 0).toNat 4 ++ [] ∧ s.fault = false)
    ∧ (let s := sent [0x00, 0x00, 0xFF, 0xFF] (fresh toyA)
       s.rst = false ∧ s.din = bytesLE (mkHeader 0x00 0 0xFFFF).toNat 4 ++ [] ∧ s.fault = false)
    ∧ (let s := sent [0x00, 0x00, 0x00, 0x00] (fresh toyA)
       s.rst = false ∧ s.din = bytesLE (mkHeader 0x00 0 0).toNat 4 ++ []) := by decide

theorem witness_CommandsThatNeedAnInstance :
    let s := { State.resetWith toyA with fault := false, err := 0 }
    s.fault = false ∧ s.live = false ∧ needsInstance (.digest 0) = true
      ∧ needsInstance (.permute [0, 1, 2]) = false := by decide

/-- Every code that a command can raise, at a value where it is raised. -/
theorem witness_FirstFailingCheckDecides :
    (fresh toyA).fault = false
      ∧ firstError (.count 1) { fresh toyA with live := false } = some .eNotLive
      ∧ firstError (.new .byteEfficient .zero true 0) (fresh { toyA with scalarBits := 32 })
          = some .eScalarWidth
      ∧ firstError (.compress []) (fresh toyA) = some .eWidth
      ∧ firstError (.new .byteEfficient .zero true 257) (fresh toyA) = some .eOperand
      ∧ firstError (.updBase [2147483647]) (fresh toyA) = some .eOperand
      ∧ firstError (.updBool [2]) (fresh toyA) = some .eOperand
      ∧ firstError (.updU8 [9]) (fresh { toyA with bufCap := some 1 }) = some .eBufFull
      ∧ firstError (.updU8 [9]) (fresh { toyA with bufCap := some 2 }) = none
      ∧ firstError (.new .byteEfficient .zero true 256) (fresh toyA) = none := by decide

theorem witness_OnlyHardwareResetClearsFault :
    (let s := { fresh toyA with fault := true, err := 3 }
     s.rst = false ∧ s.fault = true ∧ step s = .next s)
    ∧ (let s := { fresh { toyA with scalarBits := 32 } with rst := true, fault := true, err := 5 }
       s.rst = true ∧ paramsWF s.params = true ∧ fieldBits s.params < s.params.scalarBits)
    ∧ (let s := { fresh { toyA with d := 4 } with rst := true }
       s.rst = true ∧ paramsWF s.params = false) :=
  ⟨⟨rfl, rfl, rfl⟩, by decide, by decide⟩

theorem witness_ParameterStoreIsReadOnly :
    ∃ t, step (sent [0x40, 0x00, 0x01, 0x00, 7, 0, 0, 0] (fresh toyA)) = .next t := ⟨_, rfl⟩

theorem witness_EveryStepKeepsTheInvariant :
    (sent [0x40, 0x00, 0x01, 0x00, 7, 0, 0, 0] (fresh toyA)).Inv
      ∧ ∃ t, step (sent [0x40, 0x00, 0x01, 0x00, 7, 0, 0, 0] (fresh toyA)) = .next t :=
  ⟨fresh_inv _ _, _, rfl⟩

/-- Each ground of the clause on `COUNT`: a batch that ends below `2^64`, and a rate that divides it. -/
theorem witness_FacadeCommandsKeepTheFacadeInvariant :
    (fresh toyA).Inv ∧ FacadeOk (fresh toyA) ∧ facadeCommand (.updU16 [2, 1]) = true
      ∧ (∃ t, exec (.updU16 [2, 1]) (fresh toyA) = .next t)
      ∧ CursorCounts (fresh toyA)
      ∧ (fresh toyA).count.toNat + batchSize (fresh toyA) (.updU16 [2, 1]) < 2 ^ 64
      ∧ (fresh toyA).params.rate ∣ 2 ^ 64
      ∧ (fresh toyA).fault = false
      ∧ ∃ t, exec (.new .byteEfficient .zero true 1) (fresh toyA) = .next t ∧ t.fault = false :=
  ⟨fresh_inv [] [], fresh_facade, rfl, ⟨_, rfl⟩, rfl, by decide, by decide, rfl, _, rfl,
    by decide⟩

theorem witness_ExternalMixOfSmallWidths :
    toyD.width = 2 ∧ [65536, 1].length = toyD.width ∧ toyA.width = 3
      ∧ [2147483646, 1, 0].length = toyA.width ∧ 2 < toyA.width := by decide

theorem witness_ExternalMixOfBlocks :
    toyB.width = 4 ∧ 3 < toyB.width ∧ toyC.width % 4 = 0 ∧ 8 ≤ toyC.width ∧ 7 < toyC.width := by decide

theorem witness_InternalMix : [1, 2, 3].length = toyA.width ∧ 2 < toyA.width := by decide

/-- The round of the cheap schedule as the statement writes it, on the toy set. -/
def cheapNext (r : Nat) (y : List Nat) : List Nat :=
  if r < toyA.rf / 2 ∨ toyA.rf / 2 + toyA.rp ≤ r then
    extMix toyA ((List.range toyA.width).map (fun i =>
      ((y.getD i 0 + (toyA.rc.getD r []).getD i 0) % toyA.P) ^ toyA.d % toyA.P))
  else
    intMix toyA ((List.range toyA.width).map (fun i =>
      if i = 0 then ((y.getD 0 0 + (toyA.rc.getD r []).getD 0 0) % toyA.P) ^ toyA.d % toyA.P
      else y.getD i 0))

theorem witness_CheapScheduleRoundByRound :
    toyA.schedule = .cheap ∧ paramsWF toyA = true ∧ ∃ st : Nat → List Nat,
      st 0 = extMix toyA [0, 1, 2] ∧ ∀ r, st (r + 1) =
        if r < toyA.rf / 2 ∨ toyA.rf / 2 + toyA.rp ≤ r then
          extMix toyA ((List.range toyA.width).map (fun i =>
            (((st r).getD i 0 + (toyA.rc.getD r []).getD i 0) % toyA.P) ^ toyA.d % toyA.P))
        else
          intMix toyA ((List.range toyA.width).map (fun i =>
            if i = 0 then
              (((st r).getD 0 0 + (toyA.rc.getD r []).getD 0 0) % toyA.P) ^ toyA.d % toyA.P
            else (st r).getD i 0)) :=
  ⟨rfl, test_toyA_wf, fun n => Nat.rec (extMix toyA [0, 1, 2]) cheapNext n, rfl, fun _ => rfl⟩

/-- The round of the classic schedule as the statement writes it, on the toy set. -/
def classicNext (r : Nat) (y : List Nat) : List Nat :=
  (List.range toyE.width).map (fun i =>
    (∑ j ∈ Finset.range toyE.width, (toyE.mds.getD i []).getD j 0 *
      (if r < toyE.rf / 2 ∨ toyE.rf / 2 + toyE.rp ≤ r ∨ j = 0 then
        ((y.getD j 0 + (toyE.rc.getD r []).getD j 0) % toyE.P) ^ toyE.d % toyE.P
      else (y.getD j 0 + (toyE.rc.getD r []).getD j 0) % toyE.P)) % toyE.P)

theorem witness_ClassicScheduleRoundByRound :
    toyE.schedule = .classic ∧ paramsWF toyE = true ∧ ∃ st : Nat → List Nat,
      st 0 = [0, 1, 2] ∧ ∀ r, st (r + 1) =
        (List.range toyE.width).map (fun i =>
          (∑ j ∈ Finset.range toyE.width, (toyE.mds.getD i []).getD j 0 *
            (if r < toyE.rf / 2 ∨ toyE.rf / 2 + toyE.rp ≤ r ∨ j = 0 then
              (((st r).getD j 0 + (toyE.rc.getD r []).getD j 0) % toyE.P) ^ toyE.d % toyE.P
            else ((st r).getD j 0 + (toyE.rc.getD r []).getD j 0) % toyE.P)) % toyE.P) :=
  ⟨rfl, test_toyE_wf, fun n => Nat.rec [0, 1, 2] classicNext n, rfl, fun _ => rfl⟩

theorem lanes_toyA : LaneVector toyA [0, 1, 2147483646] :=
  ⟨rfl, (canonical_iff _ _).mpr (by decide)⟩

theorem witness_PermuteStaysInTheField :
    paramsWF toyA = true ∧ LaneVector toyA [0, 1, 2147483646] := ⟨test_toyA_wf, lanes_toyA⟩

/-- A set small enough to check by trying every vector that its mixing layers are injective. -/
def tiny (schedule : Schedule) : Params := toy 5 3 1 1 0 1 1 schedule [1, 1] [[2, 1], [1, 1]] []

/-- `RC` and `CLASS_CONST` of the tiny set, reduced. -/
def tinyP (schedule : Schedule) : Params :=
  { tiny schedule with rc := [[1, 2]], classConst := [[0], [1], [2], [3], [4]] }

theorem injective_of_all {f : List Nat → List Nat} {schedule : Schedule}
    (h : ∀ a b c d : Fin 5, f [a.val, b.val] = f [c.val, d.val] → a.val = c.val ∧ b.val = d.val) :
    ∀ x y, LaneVector (tinyP schedule) x → LaneVector (tinyP schedule) y → f x = f y → x = y := by
  intro x y ⟨hx, hcx⟩ ⟨hy, hcy⟩ he
  match x, y, hx, hy with
  | [a, b], [c, d], _, _ =>
    have := h ⟨a, hcx a (by simp)⟩ ⟨b, hcx b (by simp)⟩ ⟨c, hcy c (by simp)⟩ ⟨d, hcy d (by simp)⟩ he
    exact congrArg₂ (fun u v => [u, v]) this.1 this.2

theorem witness_PermuteIsABijection :
    (paramsWF (tinyP .cheap) = true ∧ Nat.Prime (tinyP .cheap).P
      ∧ Nat.Coprime (tinyP .cheap).d ((tinyP .cheap).P - 1)
      ∧ ∀ x y, LaneVector (tinyP .cheap) x → LaneVector (tinyP .cheap) y →
        (extMix (tinyP .cheap) x = extMix (tinyP .cheap) y → x = y)
          ∧ (intMix (tinyP .cheap) x = intMix (tinyP .cheap) y → x = y))
    ∧ (paramsWF (tinyP .classic) = true ∧ Nat.Prime (tinyP .classic).P
      ∧ Nat.Coprime (tinyP .classic).d ((tinyP .classic).P - 1)
      ∧ ∀ x y, LaneVector (tinyP .classic) x → LaneVector (tinyP .classic) y →
        mdsMix (tinyP .classic) x = mdsMix (tinyP .classic) y → x = y) := by
  have hp : Nat.Prime 5 := by decide
  refine ⟨⟨by decide, hp, by decide, fun x y hx hy => ⟨?_, ?_⟩⟩, by decide, hp, by decide, ?_⟩
  · exact injective_of_all (f := extMix (tinyP .cheap)) (by decide +kernel) x y hx hy
  · exact injective_of_all (f := intMix (tinyP .cheap)) (by decide +kernel) x y hx hy
  · exact injective_of_all (f := mdsMix (tinyP .classic)) (by decide +kernel)

theorem witness_PermuteAndCompressAnswer :
    (fresh toyA).fault = false ∧ LaneVector (fresh toyA).params [0, 1, 2147483646]
      ∧ (fresh toyB).fault = false ∧ (fresh toyB).params.width = 4
      ∧ 18446744069414584320 < (fresh toyB).params.P :=
  ⟨rfl, lanes_toyA, rfl, rfl, by decide⟩

/-- The index at both ends of its range, in both modes. -/
theorem witness_AbsorbIsElementwise :
    1 ≤ toyA.rate ∧ (⟨[0, 1, 2], .absorbing, 2⟩ : Sponge).idx ≤ toyA.rate
      ∧ (⟨[0, 1, 2], .squeezing, 0⟩ : Sponge).idx ≤ toyA.rate := by decide

theorem witness_SqueezeIsElementwise :
    1 ≤ toyA.rate ∧ (⟨[0, 1, 2], .squeezing, 2⟩ : Sponge).idx ≤ toyA.rate
      ∧ (⟨[0, 1, 2], .absorbing, 0⟩ : Sponge).idx ≤ toyA.rate := by decide

theorem witness_SpongeSplittingLaw :
    1 ≤ toyD.rate ∧ (⟨[0, 7], .absorbing, 1⟩ : Sponge).idx ≤ toyD.rate := by decide

theorem witness_EmptyAbsorbAndEmptySqueeze :
    (⟨[0, 1, 2], .absorbing, 2⟩ : Sponge).mode = .absorbing
      ∧ (⟨[0, 1, 2], .squeezing, 2⟩ : Sponge).mode = .squeezing := by decide

/-- Each clause: absorbing below and at `RATE`, and squeezing. -/
theorem witness_SpongeTransitions :
    1 ≤ toyA.rate ∧ [5, 6, 7] ≠ []
      ∧ (let sp : Sponge := ⟨[0, 1, 2], .absorbing, 1⟩
         sp.mode = .absorbing ∧ sp.idx < toyA.rate ∧ sp.idx ≤ toyA.rate)
      ∧ (let sp : Sponge := ⟨[0, 1, 2], .absorbing, 2⟩
         sp.mode = .absorbing ∧ sp.idx = toyA.rate ∧ sp.idx ≤ toyA.rate)
      ∧ (let sp : Sponge := ⟨[0, 1, 2], .squeezing, 2⟩
         sp.mode = .squeezing ∧ sp.idx ≤ toyA.rate) := by decide

/-- Each clause: an absorb that fills the block, a squeeze that empties it. -/
theorem witness_CapacityLanesAreHidden :
    (let sp : Sponge := ⟨[0, 1, 2], .absorbing, 1⟩
     sp.lanes.length = toyA.capacity + toyA.rate ∧ sp.mode = .absorbing ∧ sp.idx < toyA.rate
       ∧ sp.idx + [5].length ≤ toyA.rate)
    ∧ (let sp : Sponge := ⟨[0, 1, 2], .squeezing, 0⟩
       sp.lanes.length = toyA.capacity + toyA.rate ∧ sp.mode = .squeezing
         ∧ sp.idx + 2 ≤ toyA.rate) := by decide

theorem witness_SpongeCommandsComplete :
    (fresh toyA).Ready ∧ Canonical (fresh toyA).params.P [0, 2147483646] :=
  ⟨fresh_ready _, (canonical_iff _ _).mpr (by decide)⟩

theorem witness_ClassConstantsWithoutTweak :
    (⟨1, false, [0, 0], 0, false⟩ : Tweak).present = false ∧ 2 < [5, 6, 7].length := by decide

/-- The cursor at both ends of its range, and a batch that ends in each of the three cases; then a
tweak with one element left, and a batch below and at what is left. -/
theorem witness_PendingTweakAffectsOneBlock :
    1 ≤ toyA.rate
      ∧ (let t : Tweak := ⟨0, true, [7984, 15903], 2, true⟩
         t.cur < toyA.rate ∧ t.present = true ∧ t.align = true ∧ t.rem = toyA.rate)
      ∧ (let t : Tweak := ⟨1, true, [7984, 15903], 2, true⟩
         t.cur < toyA.rate ∧ t.present = true ∧ t.align = true ∧ t.rem = toyA.rate
           ∧ [1].length ≤ (toyA.rate - t.cur) % toyA.rate
           ∧ [1, 1].length < (toyA.rate - t.cur) % toyA.rate + toyA.rate
           ∧ ¬ [1, 1, 1].length < (toyA.rate - t.cur) % toyA.rate + toyA.rate)
      ∧ (let t : Tweak := ⟨1, true, [7984, 15903], 1, false⟩
         t.present = true ∧ t.align = false ∧ 1 ≤ t.rem
           ∧ ([] : List Nat).length < t.rem ∧ ¬ [1].length < t.rem) := by decide

theorem witness_DsAbsorbCompletes :
    (fresh toyA).Ready ∧ Canonical (fresh toyA).params.P [0, 2147483646] :=
  ⟨fresh_ready _, (canonical_iff _ _).mpr (by decide)⟩

theorem witness_DsAbsorbSplittingLaw :
    1 ≤ (fresh toyA).params.rate ∧ (fresh toyA).sponge.idx ≤ (fresh toyA).params.rate := by decide

theorem witness_ContextIsInstalled : (fresh toyA).Ready ∧ 0 < (fresh toyA).params.P :=
  ⟨fresh_ready _, by decide⟩

/-- One place before lane 0, filled by the flush of a remaining byte, and filled by a batch. -/
theorem witness_ContextWithNothingAfterIt :
    (let s := { fresh toyA with buf := [1], tweak := ⟨1, false, [0, 0], 0, false⟩ }
     s.Ready ∧ 1 ≤ s.params.rate ∧ s.tweak.cur < s.params.rate ∧ s.tweak.present = false
       ∧ (([] : List (ClassCode × List Nat)).map (fun b => b.2.length)).sum
           + (flushList s.params s.cfg s.buf).length
         ≤ (s.params.rate - s.tweak.cur) % s.params.rate
       ∧ ∃ t, exec (.absorbDomain [0x41]) s = .next t)
    ∧ (let s := { fresh toyA with tweak := ⟨1, false, [0, 0], 0, false⟩ }
       s.Ready ∧ 1 ≤ s.params.rate ∧ s.tweak.cur < s.params.rate ∧ s.tweak.present = false
         ∧ ([(ClassCode.base, [2]), (.scalar, [])].map (fun b => b.2.length)).sum
             + (flushList s.params s.cfg s.buf).length
           ≤ (s.params.rate - s.tweak.cur) % s.params.rate
         ∧ ∃ t, exec (.absorbDomain [0x41]) s = .next t) :=
  ⟨⟨⟨rfl, rfl⟩, by decide, by decide, rfl, by decide, _, rfl⟩,
    ⟨rfl, rfl⟩, by decide, by decide, rfl, by decide, _, rfl⟩

theorem witness_FieldAdapterCommandsComplete :
    (fresh toyA).Ready ∧ 2147483646 < (fresh toyA).params.P
      ∧ (fresh toyA).params.scalarBits ≤ fieldBits (fresh toyA).params
      ∧ ([0xFF, 0xFF, 0xFF, 0xFF] : List Byte).length = scalarBytes (fresh toyA).params :=
  ⟨fresh_ready _, by decide, by decide, by decide⟩

/-- The values where the lengths change. -/
theorem witness_Leb128IsTheMinimalCode :
    (0 : Nat) = 0 ∧ (127 : Nat) < 2 ^ 7 ∧ (127 : Nat) ≠ 0
      ∧ (2 ^ 7 ≤ (128 : Nat) ∧ (128 : Nat) < 2 ^ 14) ∧ (16383 : Nat) < 2 ^ 14
      ∧ (2 ^ 14 ≤ (16384 : Nat) ∧ (16384 : Nat) < 2 ^ 21)
      ∧ (18446744073709551615 : Nat) < 2 ^ 64 := by decide

theorem witness_DrainTakesWholeChunks :
    1 ≤ chunkSize ⟨.byteEfficient, .zero, 1⟩ ∧ 1 ≤ chunkSize ⟨.circuitFriendly, .zero, 256⟩ := by decide

theorem witness_FlushPadsTheRemainder :
    (let c : Cfg := ⟨.byteEfficient, .zero, 2⟩
     1 ≤ chunkSize c ∧ (drain toyA c [1, 2, 3]).2 ≠ [] ∧ (drain toyA c [1, 2]).2 = [] ∧ c.pad = .zero)
    ∧ (let c : Cfg := ⟨.byteEfficient, .lengthPrefix, 2⟩
       1 ≤ chunkSize c ∧ (drain toyA c [1, 2, 3]).2 ≠ [] ∧ c.pad = .lengthPrefix
         ∧ (drain toyA c [1, 2, 3]).2.length ≤ 255)
    ∧ (let c : Cfg := ⟨.circuitFriendly, .lengthPrefix, 2⟩
       1 ≤ chunkSize c ∧ c.pk = .circuitFriendly) := by decide

theorem witness_ExtractionIgnoresBoundaries :
    1 ≤ (fresh toyA).params.rate ∧ (fresh toyA).sponge.idx ≤ (fresh toyA).params.rate
      ∧ 1 ≤ chunkSize (fresh toyA).cfg := by decide

/-- A push that fills a bounded buffer to the last byte. -/
theorem witness_PushCommandsComplete :
    (fresh { toyA with bufCap := some 1 }).Ready ∧ Fits (fresh { toyA with bufCap := some 1 }) 1
      ∧ Fits (fresh { toyA with bufCap := some 2 }) ([2, 1] : List Byte).length
      ∧ ([0x2C, 1, 0, 0, 0, 0, 0, 0] : List Byte).length = 8
      ∧ Fits (fresh { toyA with bufCap := some 2 })
          (leb128 (leNat [0x2C, 1, 0, 0, 0, 0, 0, 0])).length :=
  ⟨fresh_ready _, fits_bounded 1, fits_bounded 2, rfl, fits_bounded 2⟩

theorem witness_ExtractAndFlushComplete : (fresh toyA).Ready := fresh_ready _

/-- A payload of each length, and room for what is pushed. -/
theorem witness_PrimitiveUpdatesComplete :
    (fresh toyA).Ready ∧ ([1] : List Byte).length = 1 ∧ ([1] : List Byte).getD 0 0 ≤ 1
      ∧ (List.replicate 2 (0xFF : Byte)).length = 2 ∧ (List.replicate 4 (0xFF : Byte)).length = 4
      ∧ (List.replicate 8 (0xFF : Byte)).length = 8 ∧ (List.replicate 16 (0xFF : Byte)).length = 16
      ∧ (∀ n, Fits (fresh toyA) n)
      ∧ Fits (fresh { toyA with bufCap := some 2 }) (tagAt toyA .bool :: ([1] : List Byte)).length :=
  ⟨fresh_ready _, rfl, by decide, rfl, rfl, rfl, rfl, fits_unbounded, fits_bounded 2⟩

/-- Two pieces and an empty one, no piece at all, and room up to the last byte. -/
theorem witness_LongFormsLeaveTheSameState :
    (let pieces : List (List Byte) := [[0x68], [], [0x69]]
     let b := pieces.flatten
     (fresh toyA).Ready ∧ (∀ x ∈ pieces, x.length ≤ 65535) ∧ b.length < 2 ^ 64
       ∧ Fits (fresh toyA) (1 + (leb128 b.length).length + b.length)
       ∧ Fits (fresh { toyA with bufCap := some 4 }) (1 + (leb128 b.length).length + b.length))
    ∧ (let pieces : List (List Byte) := []
       (∀ x ∈ pieces, x.length ≤ 65535) ∧ pieces.flatten.length < 2 ^ 64) :=
  ⟨⟨fresh_ready _, by decide, by decide, fits_unbounded _, fits_bounded 4⟩, by decide, by decide⟩

/-- The override at both ends of its range, and none. -/
theorem witness_NewBuildsAnInstance :
    (fresh toyA).fault = false ∧ (fresh toyA).params.scalarBits ≤ fieldBits (fresh toyA).params
      ∧ (1 ≤ (1 : Len).toNat ∧ (1 : Len).toNat ≤ 256)
      ∧ (1 ≤ (256 : Len).toNat ∧ (256 : Len).toNat ≤ 256) ∧ (0 : Len) = 0 := by decide

theorem witness_ResetRestoresAFreshInstance :
    (fresh toyA).Ready ∧ (fresh toyA).Inv
      ∧ (fresh toyA).params.scalarBits ≤ fieldBits (fresh toyA).params
      ∧ newCfg (fresh toyA).params (fresh toyA).cfg.pk (fresh toyA).cfg.pad false 0 = (fresh toyA).cfg
      ∧ (∃ t, exec (.reset 0) (fresh toyA) = .next t)
      ∧ ∃ u, exec (.new (fresh toyA).cfg.pk (fresh toyA).cfg.pad false 0) (fresh toyA) = .next u :=
  ⟨fresh_ready _, fresh_inv [] [], by decide, by decide, ⟨_, rfl⟩, _, rfl⟩

theorem witness_DigestChangesNothing : (fresh toyA).Ready := fresh_ready _

theorem witness_DigestEqualsFinalize :
    (fresh toyA).live = true ∧ (∃ t, exec (.digest 0) (fresh toyA) = .next t)
      ∧ ∃ u, exec (.finalize 0) (fresh toyA) = .next u := ⟨rfl, ⟨_, rfl⟩, _, rfl⟩

theorem witness_FinalizeWipes : (fresh toyB).Ready := fresh_ready _

theorem witness_CountAndStatusAnswer : (fresh toyA).Ready := fresh_ready _

end Sys2Proof.Tests
end

