-- ==== Sys2Proof/Proofs/Scope.lean ====
section
/-! The statements of 00_scope.md: little-endian byte strings (R14), and the check of a parameter set as
the list of its conditions (R9). -/

namespace Sys2Proof

/-! ### Byte strings (R14) -/

/-- `LE(b)` read from the recursion is the sum that R14 writes. -/
theorem leNat_eq_sum (b : List Byte) :
    leNat b = ∑ i ∈ Finset.range b.length, (b.getD i 0).toNat * 256 ^ i := by
  induction b with
  | nil => rfl
  | cons x xs ih =>
    have shifted : 256 * leNat xs =
        ∑ i ∈ Finset.range xs.length, (xs.getD i 0).toNat * 256 ^ (i + 1) := by
      rw [ih, Finset.mul_sum]
      exact Finset.sum_congr rfl fun i _ => by ring
    rw [leNat_cons, shifted, List.length_cons, Finset.sum_range_succ']
    simp [Nat.add_comm]

/-- Writing what a byte string reads as, at its own length, gives it back: the lowest byte is the value
modulo 256, and the other bytes are the quotient. -/
@[simp] theorem bytesLE_leNat (b : List Byte) : bytesLE (leNat b) b.length = b := by
  induction b with
  | nil => rfl
  | cons x xs ih =>
    have hx : x.toNat < 256 := x.isLt
    have low : BitVec.ofNat 8 (x.toNat + 256 * leNat xs) = x := by
      apply BitVec.eq_of_toNat_eq
      rw [BitVec.toNat_ofNat]
      omega
    have high : (x.toNat + 256 * leNat xs) / 256 = leNat xs := by omega
    rw [leNat_cons, List.length_cons, bytesLE, low, high, ih]

/-- A value that fits `n` bytes is read back from them. -/
theorem leNat_bytesLE {v n : Nat} (h : v < 256 ^ n) : leNat (bytesLE v n) = v := by
  rw [leNat_bytesLE_mod, Nat.mod_eq_of_lt h]

end Sys2Proof

namespace Sys2Proof.Machine

/-! ### The conditions of the parameter check (R9) -/

theorem tableShape_iff {rows cols : Nat} {t : List (List Nat)} :
    tableShape rows cols t = true ↔ t.length = rows ∧ ∀ row ∈ t, row.length = cols := by
  simp [tableShape]

theorem tableCanonical_iff {P : Nat} {t : List (List Nat)} :
    tableCanonical P t = true ↔ ∀ row ∈ t, ∀ v ∈ row, v < P := by
  simp [tableCanonical]

theorem cheapWidth_iff {w : Nat} :
    cheapWidth w = true ↔ w = 2 ∨ w = 3 ∨ w = 4 ∨ (4 ∣ w ∧ 8 ≤ w) := by
  simp [cheapWidth, Nat.dvd_iff_mod_eq_zero, or_assoc]

/-! ### The tags of the 13 kinds (R9 (g)) -/

theorem mem_allKinds (k : Kind) : k ∈ allKinds := by
  cases k <;> decide

theorem allKinds_map_kindIndex : allKinds.map kindIndex = List.range 13 := by decide

/-- A tag table of 13 entries lists the tags of the kinds, each once. -/
theorem allKinds_map_tagAt {C : Params} (h : C.tag.length = 13) :
    allKinds.map (tagAt C) = C.tag := by
  calc allKinds.map (tagAt C)
      = (allKinds.map kindIndex).map (C.tag.getD · 0) := by rw [List.map_map]; rfl
    _ = (List.range C.tag.length).map (C.tag.getD · 0) := by rw [allKinds_map_kindIndex, h]
    _ = C.tag := List.ext_getElem (by simp) fun i _ hi => by
        rw [List.getElem_map, List.getElem_range, List.getD_eq_getElem]

/-- A tag table of 13 entries without repetition is one whose tags tell the kinds apart. -/
theorem tag_nodup_iff {C : Params} (h : C.tag.length = 13) :
    C.tag.Nodup ↔ ∀ k k' : Kind, tagAt C k = tagAt C k' → k = k' := by
  have kinds_nodup : allKinds.Nodup := by decide
  rw [← allKinds_map_tagAt h, List.nodup_map_iff_inj_on kinds_nodup]
  exact ⟨fun inj k k' => inj k (mem_allKinds k) k' (mem_allKinds k'), fun inj k _ k' _ => inj k k'⟩

end Sys2Proof.Machine

open Sys2Proof Sys2Proof.Machine

/-- Settles O1: the three laws of `LE` and `bytes_le`; `chunkElem` is the reduction by definition. -/
theorem littleEndianBytes : Obligations.LittleEndianBytes :=
  ⟨leNat_eq_sum, fun v n h => ⟨bytesLE_length v n, leNat_bytesLE h⟩, bytesLE_leNat, fun _ _ => rfl⟩

/-- Settles O12: conjunct by conjunct for each schedule. The checks of tables and of the width are
the conditions by their own lemmas; the tags, compared in the model as a list without repetition, are
told apart by `tag_nodup_iff`. -/
theorem paramsCheckIsTheListOfConditions : Obligations.ParamsCheckIsTheListOfConditions := by
  intro C
  have tags : C.tag.length = 13 ∧ C.tag.Nodup ↔
      C.tag.length = 13 ∧ ∀ k k' : Kind, tagAt C k = tagAt C k' → k = k' :=
    and_congr_right tag_nodup_iff
  rw [← tags, paramsWF]
  cases C.schedule with
  | cheap =>
    simp [tableShape_iff, tableCanonical_iff, cheapWidth_iff, Nat.even_iff,
      Nat.dvd_iff_mod_eq_zero, and_assoc, or_assoc, ← imp_iff_not_or]
  | classic =>
    simp [tableShape_iff, tableCanonical_iff, Nat.even_iff, and_assoc, or_assoc]
end

section
/-! The invariant of the architectural state (10_state.md R35 (a) to (g)): what each part of the block
keeps of it, from the permutation up to one step. -/

namespace Sys2Proof.Machine

/-! ### What a well-formed parameter set gives (00_scope.md R9) -/

theorem rate_pos_of_paramsWF {C : Params} (hwf : paramsWF C = true) : 1 ≤ C.rate := by
  obtain ⟨-, -, -, -, -, hrate, -⟩ := (paramsCheckIsTheListOfConditions C).mp hwf
  exact hrate

/-- The check does not test the modulus, but a table with an entry below `P` does: `CLASS_CONST` has
five rows of `RATE >= 1` canonical entries. -/
theorem modulus_pos_of_paramsWF {C : Params} (hwf : paramsWF C = true) : 0 < C.P := by
  obtain ⟨-, -, -, -, -, hrate, -, -, -, -, -, -, -, hcanon, ⟨hrows, hcols⟩, -⟩ :=
    (paramsCheckIsTheListOfConditions C).mp hwf
  obtain ⟨row, hrow⟩ : ∃ row, row ∈ C.classConst := List.length_pos_iff_exists_mem.mp (by omega)
  obtain ⟨v, hv⟩ : ∃ v, v ∈ row := List.length_pos_iff_exists_mem.mp (by rw [hcols row hrow]; omega)
  exact Nat.zero_lt_of_lt (hcanon row hrow v hv)

/-! ### Canonical vectors (00_scope.md R10) -/

theorem canonical_replicate_zero {P : Nat} (hP : 0 < P) (n : Nat) :
    Canonical P (List.replicate n 0) := by
  intro v hv
  rwa [List.eq_of_mem_replicate hv]

theorem canonical_map_range {P : Nat} {f : Nat → Nat} (hf : ∀ i, f i < P) (n : Nat) :
    Canonical P ((List.range n).map f) := by
  intro v hv
  obtain ⟨i, -, rfl⟩ := List.mem_map.mp hv
  exact hf i

theorem laneVector_vector {C : Params} {f : Nat → Nat} (hf : ∀ i, f i < C.P) :
    LaneVector C (vector C f) := ⟨vector_length C f, canonical_map_range hf _⟩

/-- A lane of a canonical vector is canonical, also past its end, where it reads 0. -/
theorem lane_lt {P : Nat} {x : List Nat} (hP : 0 < P) (hx : Canonical P x) (i : Nat) :
    lane x i < P := by
  rw [lane, List.getD_eq_getElem?_getD]
  cases h : x[i]? with
  | none => exact hP
  | some v => exact hx v (List.mem_of_getElem? h)

/-! ### The permutation stays in the field (40_permutation.md R116) -/

theorem sbox_lt {C : Params} (hP : 0 < C.P) (x : Nat) : sbox C x < C.P := by
  unfold sbox
  dsimp only
  split_ifs
  case neg => rw [fpow_eq_pow_mod]; exact Nat.mod_lt _ hP
  all_goals exact fmul_lt hP _ _

/-- Every external mix ends in a sum of the field but the one of a width that has none, which is the
identity (log entry 5). -/
theorem extMix_laneVector {C : Params} {x : List Nat} (hP : 0 < C.P) (hx : Canonical C.P x) :
    LaneVector C (extMix C x) := by
  unfold extMix
  split_ifs
  · exact laneVector_vector fun _ => fadd_lt hP _ _
  · exact laneVector_vector fun _ => fsum_lt hP _
  · exact laneVector_vector fun _ => fadd_lt hP _ _
  · exact laneVector_vector (lane_lt hP hx)

theorem fullRound_laneVector {C : Params} (hP : 0 < C.P) (r : Nat) (x : List Nat) :
    LaneVector C (fullRound C r x) :=
  extMix_laneVector hP (canonical_map_range (fun _ => sbox_lt hP _) _)

theorem partialRound_laneVector {C : Params} (hP : 0 < C.P) (r : Nat) (x : List Nat) :
    LaneVector C (partialRound C r x) := laneVector_vector fun _ => fadd_lt hP _ _

theorem classicRound_laneVector {C : Params} (hP : 0 < C.P) (r : Nat) (x : List Nat) :
    LaneVector C (classicRound C r x) := laneVector_vector fun _ => fsum_lt hP _

/-- The permutation maps vectors of canonical lanes to such vectors; the argument counts only for a
classic schedule without rounds and for a width without an external mix. -/
theorem permute_laneVector {C : Params} {x : List Nat} (hP : 0 < C.P) (hx : LaneVector C x) :
    LaneVector C (permute C x) := by
  unfold permute
  cases C.schedule with
  | cheap =>
    have full (start n : Nat) {y : List Nat} : LaneVector C y →
        LaneVector C (rounds (fullRound C) start n y) :=
      rounds_keep (fun r y _ => fullRound_laneVector hP r y) start n
    have mixed : LaneVector C (extMix C x) := extMix_laneVector hP hx.2
    exact full _ _
      (rounds_keep (fun r y _ => partialRound_laneVector hP r y) _ _ (full _ _ mixed))
  | classic => exact rounds_keep (fun r y _ => classicRound_laneVector hP r y) _ _ hx

/-! ### The sponge keeps R35 (a), (b) -/

theorem zeroSponge_ok {C : Params} (hP : 0 < C.P) : SpongeOk C (zeroSponge C) :=
  ⟨⟨List.length_replicate, canonical_replicate_zero hP _⟩, Nat.zero_le _⟩

theorem permuteSponge_ok {C : Params} {sp : Sponge} (hP : 0 < C.P) (h : LaneVector C sp.lanes) :
    SpongeOk C (permuteSponge C sp) := ⟨permute_laneVector hP h, Nat.zero_le _⟩

/-- The added elements need not be canonical: each sum is reduced. -/
theorem addLanes_laneVector {C : Params} (hP : 0 < C.P) (e : List Nat) (i : Nat) {x : List Nat}
    (hx : LaneVector C x) : LaneVector C (addLanes C.P i x e) := by
  induction e generalizing i x with
  | nil => rwa [addLanes_nil]
  | cons v e ih =>
    obtain ⟨hlen, hcanon⟩ := hx
    rw [addLanes_cons]
    refine ih _ ⟨by rw [List.length_set, hlen], fun w hw => ?_⟩
    rcases List.mem_or_eq_of_mem_set hw with hold | rfl
    · exact hcanon w hold
    · exact fadd_lt hP _ _

theorem absorbLoop_ok {C : Params} (hP : 0 < C.P) (fuel : Nat) {sp : Sponge} (e : List Nat)
    (h : SpongeOk C sp) : SpongeOk C (absorbLoop C fuel sp e) := by
  induction fuel generalizing sp e with
  | zero => exact h
  | succ fuel ih =>
    obtain ⟨hlanes, hidx⟩ := h
    by_cases hfit : sp.idx + e.length ≤ C.rate
    · rw [absorbLoop_last C fuel sp e hfit]
      exact ⟨addLanes_laneVector hP _ _ hlanes, hfit⟩
    · rw [absorbLoop_more C fuel sp e (Nat.lt_of_not_le hfit) hidx]
      exact ih _ ⟨permute_laneVector hP (addLanes_laneVector hP _ _ hlanes), Nat.zero_le _⟩

theorem absorbStart_ok {C : Params} {sp : Sponge} (hP : 0 < C.P) (h : SpongeOk C sp) :
    SpongeOk C (absorbStart C sp) := by
  unfold absorbStart
  cases sp.mode with
  | squeezing =>
    dsimp only
    split
    · exact permuteSponge_ok hP h.1
    · exact ⟨h.1, Nat.zero_le _⟩
  | absorbing =>
    dsimp only
    split
    · exact permuteSponge_ok hP h.1
    · exact h

theorem spAbsorb_ok {C : Params} {sp : Sponge} (hP : 0 < C.P) (e : List Nat) (h : SpongeOk C sp) :
    SpongeOk C (spAbsorb C sp e) := by
  cases e with
  | nil => exact h
  | cons v e => exact absorbLoop_ok hP _ _ (absorbStart_ok hP h)

theorem squeezeLoop_ok {C : Params} (hP : 0 < C.P) (fuel : Nat) {sp : Sponge} (n : Nat)
    (h : SpongeOk C sp) : SpongeOk C (squeezeLoop C fuel sp n).2 := by
  induction fuel generalizing sp n with
  | zero => exact h
  | succ fuel ih =>
    obtain ⟨hlanes, hidx⟩ := h
    by_cases hfit : sp.idx + n ≤ C.rate
    · rw [squeezeLoop_last C fuel sp n hfit]
      exact ⟨hlanes, hfit⟩
    · rw [squeezeLoop_more C fuel sp n (Nat.lt_of_not_le hfit) hidx]
      exact ih _ ⟨permute_laneVector hP hlanes, Nat.zero_le _⟩

theorem squeezeStart_ok {C : Params} {sp : Sponge} (hP : 0 < C.P) (h : SpongeOk C sp) :
    SpongeOk C (squeezeStart C sp) := by
  unfold squeezeStart
  cases sp.mode with
  | absorbing => exact permuteSponge_ok hP h.1
  | squeezing => exact h

theorem spSqueeze_ok {C : Params} {sp : Sponge} (hP : 0 < C.P) (n : Nat) (h : SpongeOk C sp) :
    SpongeOk C (spSqueeze C sp n).2 := squeezeLoop_ok hP _ _ (squeezeStart_ok hP h)

/-! ### The tweaker keeps R35 (a), (c), (d), (e) -/

theorem zeroTweak_ok {C : Params} (hP : 0 < C.P) (hrate : 1 ≤ C.rate) : TweakOk C (zeroTweak C) where
  cur_lt := hrate
  vec_length := List.length_replicate
  vec_canonical := canonical_replicate_zero hP _
  rem_pos := Bool.noConfusion
  rem_le := Nat.zero_le _
  aligned := Bool.noConfusion
  cleared := fun _ => ⟨rfl, rfl, rfl⟩

/-- Using up a lane clears the registers with the last lane, and leaves at least one lane before. -/
theorem consumeTweak_ok {C : Params} {t : Tweak} (hP : 0 < C.P) (hpres : t.present = true)
    (h : TweakOk C t) : TweakOk C (consumeTweak C t) := by
  by_cases hlast : t.rem ≤ 1
  · rw [consumeTweak_last C hlast]
    exact { zeroTweak_ok hP (Nat.zero_lt_of_lt h.cur_lt) with cur_lt := h.cur_lt }
  · have hmore : 1 < t.rem := Nat.lt_of_not_le hlast
    rw [consumeTweak_more C hmore]
    exact
      { h with
        rem_pos := fun _ => Nat.le_sub_one_of_lt hmore
        rem_le := (Nat.sub_le _ _).trans h.rem_le
        aligned := fun _ => Bool.noConfusion
        cleared := fun hclear => absurd (hpres.symm.trans hclear) (by decide) }

theorem present_of_tweakApplies {t : Tweak} {l : Nat} (h : tweakApplies t l = true) :
    t.present = true := by
  simp only [tweakApplies, Bool.and_eq_true, and_assoc] at h
  obtain ⟨hpres, -⟩ := h
  exact hpres

theorem tweakElem_ok {C : Params} {t : Tweak} (hP : 0 < C.P) (c : ClassCode) (l e : Nat)
    (h : TweakOk C t) : TweakOk C (tweakElem C c l t e).2 := by
  unfold tweakElem
  dsimp only
  split
  · next happ => exact consumeTweak_ok hP (present_of_tweakApplies happ) h
  · exact h

theorem tweakLoop_ok {C : Params} (hP : 0 < C.P) (c : ClassCode) (cur p : Nat) {t : Tweak}
    (e : List Nat) (h : TweakOk C t) : TweakOk C (tweakLoop C c cur p t e).2 := by
  induction e generalizing p t with
  | nil => exact h
  | cons v e ih => exact ih _ (tweakElem_ok hP c _ v h)

theorem dsTransform_ok {C : Params} {t : Tweak} (hP : 0 < C.P) (c : ClassCode) (e : List Nat)
    (h : TweakOk C t) : TweakOk C (dsTransform C c t e).2 :=
  { tweakLoop_ok hP c t.cur 0 e h with cur_lt := Nat.mod_lt _ (Nat.zero_lt_of_lt h.cur_lt) }

theorem contextTweak_ok {C : Params} {t : Tweak} (hP : 0 < C.P) (ctx : List Byte)
    (h : TweakOk C t) : TweakOk C (contextTweak C ctx t) where
  cur_lt := h.cur_lt
  vec_length := by simp [contextTweak]
  vec_canonical := canonical_map_range (domainDerive_lt hP ctx) _
  rem_pos := fun _ => Nat.zero_lt_of_lt h.cur_lt
  rem_le := Nat.le_refl _
  aligned := fun _ _ => rfl
  cleared := Bool.noConfusion

/-! ### The packing buffer keeps its bound (20_memory.md R52) -/

theorem drainLoop_rest_length_le (P n fuel : Nat) (b : List Byte) :
    (drainLoop P n fuel b).2.length ≤ b.length := by
  induction fuel generalizing b with
  | zero => exact Nat.le_refl _
  | succ fuel ih =>
    by_cases hchunk : n ≤ b.length
    · rw [drainLoop_chunk P n fuel hchunk]
      exact (ih _).trans (by simp)
    · rw [drainLoop_short P n _ (Nat.lt_of_not_le hchunk)]

theorem drain_rest_length_le (C : Params) (c : Cfg) (b : List Byte) :
    (drain C c b).2.length ≤ b.length := drainLoop_rest_length_le _ _ _ _

/-- A push whose capacity check passes fits (60_exceptions.md R272). -/
theorem fits_of_not_bufFull {s : State} {n : Nat} (h : (bufFull s n).1 = false) : Fits s n := by
  intro cap hcap
  simpa [bufFull, exceedsCap, hcap] using h

/-! ### `InstanceOk` under the updates of a live block -/

section Live

variable {s : State}

/-- A state whose registers are those that `NEW` builds (45_hasher.md R231): R35 holds of it whatever
its packing mode. -/
theorem instanceOk_of_new (hwf : paramsWF s.params = true)
    (sponge : s.sponge = zeroSponge s.params) (base : s.base = zeroSponge s.params)
    (tweak : s.tweak = zeroTweak s.params) (count : s.count = 0) (buf : s.buf = [])
    (maxb : 1 ≤ s.cfg.maxb) (dead : s.live = false → s.cfg = resetCfg s.params) :
    InstanceOk s where
  sponge := sponge ▸ zeroSponge_ok (modulus_pos_of_paramsWF hwf)
  base := base
  tweak := tweak ▸ zeroTweak_ok (modulus_pos_of_paramsWF hwf) (rate_pos_of_paramsWF hwf)
  maxb := maxb
  buf := by intro cap _; simp [buf]
  dead := fun hdead => ⟨sponge, tweak, count, buf, dead hdead⟩

/-- The clause of R35 on `LIVE = 0` says nothing of a live block. -/
theorem dead_of_live {p : Prop} (hlive : s.live = true) : s.live = false → p :=
  fun hdead => absurd (hlive.symm.trans hdead) (by decide)

theorem InstanceOk.setSponge {sp : Sponge} (h : InstanceOk s) (hlive : s.live = true)
    (hsp : SpongeOk s.params sp) : InstanceOk (s.setSponge sp) :=
  { h with sponge := hsp, dead := dead_of_live hlive }

theorem InstanceOk.setTweak {t : Tweak} (h : InstanceOk s) (hlive : s.live = true)
    (ht : TweakOk s.params t) : InstanceOk (s.setTweak t) :=
  { h with tweak := ht, dead := dead_of_live hlive }

theorem InstanceOk.addCount (h : InstanceOk s) (hlive : s.live = true) (n : Nat) :
    InstanceOk (s.addCount n) :=
  { h with dead := dead_of_live hlive }

theorem InstanceOk.setBuf {b : List Byte} (h : InstanceOk s) (hlive : s.live = true)
    (hb : Fits (s.setBuf b) 0) : InstanceOk (s.setBuf b) :=
  { h with buf := hb, dead := dead_of_live hlive }

/-- A shorter buffer fits where the old one did. -/
theorem InstanceOk.setBuf_of_le {b : List Byte} (h : InstanceOk s) (hlive : s.live = true)
    (hb : b.length ≤ s.buf.length) : InstanceOk (s.setBuf b) :=
  h.setBuf hlive fun cap hcap => hb.trans (h.buf cap hcap)

theorem InstanceOk.bufPush {b : List Byte} (h : InstanceOk s) (hlive : s.live = true)
    (hb : Fits s b.length) : InstanceOk (bufPush b s) :=
  h.setBuf hlive fun cap hcap => by simpa using hb cap hcap

/-- A batch (42_domain_separation.md R155): the cursor and the tweak, the counter, the sponge. -/
theorem InstanceOk.dsAbsorb (h : InstanceOk s) (hwf : paramsWF s.params = true)
    (hlive : s.live = true) (c : ClassCode) (e : List Nat) : InstanceOk (dsAbsorb c e s) := by
  have hP := modulus_pos_of_paramsWF hwf
  exact ((h.setTweak hlive (dsTransform_ok hP c e h.tweak)).addCount hlive e.length).setSponge hlive
    (spAbsorb_ok hP _ h.sponge)

theorem InstanceOk.extract (h : InstanceOk s) (hwf : paramsWF s.params = true)
    (hlive : s.live = true) : InstanceOk (extract s) := by
  rw [extract_eq]
  exact (h.setBuf_of_le hlive (drain_rest_length_le _ _ _)).dsAbsorb hwf hlive _ _

theorem InstanceOk.flush (h : InstanceOk s) (hwf : paramsWF s.params = true)
    (hlive : s.live = true) : InstanceOk (flush s) := by
  rw [flush_eq]
  exact (h.setBuf_of_le (b := []) hlive (Nat.zero_le _)).dsAbsorb hwf hlive _ _

/-- R239: the snapshot that the sponge is restored from is the zero-filled sponge (R26). -/
theorem InstanceOk.resetInstance (h : InstanceOk s) (hwf : paramsWF s.params = true)
    (hlive : s.live = true) : InstanceOk (resetInstance s) := by
  rw [resetInstance_eq]
  exact instanceOk_of_new hwf h.base h.base rfl rfl rfl h.maxb (dead_of_live hlive)

theorem buildInstance_ok {cfg : Cfg} (hwf : paramsWF s.params = true) (hmaxb : 1 ≤ cfg.maxb) :
    InstanceOk (buildInstance cfg s) := by
  rw [buildInstance_eq]
  exact instanceOk_of_new hwf rfl rfl rfl rfl rfl hmaxb Bool.noConfusion

/-- The wipe of `FINALIZE` (45_hasher.md R237) leaves nothing of what was built. -/
theorem finalizeInstance_ok (hwf : paramsWF s.params = true) : InstanceOk (finalizeInstance s) :=
  instanceOk_of_new hwf rfl rfl rfl rfl rfl (maxbDefault_pos _) fun _ => rfl

/-- `NEW` writes a chunk size of at least 1: an override that passed its check, or the default. -/
theorem newCfg_maxb_pos {ovr : Bool} {len : Len} (C : Params) (pk : PackMode) (pad : PadPolicy)
    (h : (badOverride ovr len).1 = false) : 1 ≤ (newCfg C pk pad ovr len).maxb := by
  cases ovr with
  | false => exact maxbDefault_pos C
  | true =>
    simp only [badOverride, if_true, Bool.or_eq_false_iff, decide_eq_false_iff_not] at h
    obtain ⟨hlow, -⟩ := h
    exact Nat.le_of_not_lt hlow

end Live

/-! ### Responses, errors and hardware reset -/

/-- The ports are no part of what `InstanceOk` says; nor are `FAULT` and `ERR`. -/
theorem InstanceOk.send {s : State} (h : InstanceOk s) (b : List Byte) : InstanceOk (s.send b) :=
  { h with }

theorem InstanceOk.respond {s : State} (h : InstanceOk s) (data : List Byte) :
    InstanceOk (respond data s) := h.send _

theorem InstanceOk.raise {s : State} (h : InstanceOk s) (e : Status) : InstanceOk (raise e s) :=
  { h with }

theorem State.Inv.send {s : State} (h : s.Inv) (b : List Byte) : (s.send b).Inv where
  err := h.err
  params := h.params
  ok := fun hwf => (h.ok hwf).send b

theorem State.Inv.respond {s : State} (h : s.Inv) (data : List Byte) : (respond data s).Inv :=
  h.send _

theorem State.Inv.setDin {s : State} (h : s.Inv) (rest : List Byte) : (s.setDin rest).Inv where
  err := h.err
  params := h.params
  ok := fun hwf => { h.ok hwf with }

/-- Taking an error keeps the invariant when there was none before and the code is not that of `OK`. -/
theorem State.Inv.raise {s : State} {e : Status} (h : s.Inv) (hfault : s.fault = false)
    (he : e ≠ .ok) : (raise e s).Inv where
  err := by
    have hcode : statusCode e ≠ 0 := mt (statusCode_eq_zero_iff e).mp he
    simpa [hfault] using hcode
  params := fun _ => rfl
  ok := fun hwf => (h.ok hwf).raise e

/-- A block without a fault has a well-formed parameter set. -/
theorem State.Inv.paramsWF_of_no_fault {s : State} (h : s.Inv) (hfault : s.fault = false) :
    paramsWF s.params = true := by
  by_contra hmal
  rw [h.params (Bool.eq_false_of_not_eq_true hmal)] at hfault
  cases hfault

/-- The check at reset exit (60_exceptions.md R266) makes the invariant of an arbitrary set hold. -/
theorem resetWith_inv (C : Params) : (State.resetWith C).Inv where
  err := by
    show (!paramsWF C) = false ↔ (if paramsWF C then 0 else statusCode .eParams) = 0
    cases paramsWF C <;> decide
  params := congrArg not
  ok := fun hwf => instanceOk_of_new hwf rfl rfl rfl rfl rfl (maxbDefault_pos _) fun _ => rfl

theorem hardwareReset_inv (s : State) : (hardwareReset s).Inv :=
  (resetWith_inv s.params).send s.dout

/-! ### Commands (60_exceptions.md R265) -/

section Commands

variable {s : State} {checks : List (Bool × Status)}

/-- Every check of a command has the code of an error. -/
def RaisesErrors (checks : List (Bool × Status)) : Prop := ∀ c ∈ checks, c.2 ≠ .ok

@[simp] theorem raisesErrors_nil : RaisesErrors [] := fun _ h => absurd h List.not_mem_nil

@[simp] theorem raisesErrors_cons {c : Bool × Status} :
    RaisesErrors (c :: checks) ↔ c.2 ≠ .ok ∧ RaisesErrors checks := List.forall_mem_cons

@[simp] theorem raisesErrors_append {more : List (Bool × Status)} :
    RaisesErrors (checks ++ more) ↔ RaisesErrors checks ∧ RaisesErrors more :=
  List.forall_mem_append

@[simp] theorem notLive_code : (notLive s).2 = .eNotLive := rfl
@[simp] theorem badScalarWidth_code : (badScalarWidth s).2 = .eScalarWidth := rfl
@[simp] theorem badWidth_code : (badWidth s).2 = .eWidth := rfl
@[simp] theorem badLen_code (len required : Nat) : (badLen len required).2 = .eOperand := rfl
@[simp] theorem badOverride_code (ovr : Bool) (len : Len) :
    (badOverride ovr len).2 = .eOperand := rfl
@[simp] theorem badElems_code (e : List Nat) : (badElems s e).2 = .eOperand := rfl
@[simp] theorem badBool_code (b : List Byte) : (badBool b).2 = .eOperand := rfl
@[simp] theorem bufFull_code (n : Nat) : (bufFull s n).2 = .eBufFull := rfl

/-- A command keeps the invariant when its action does once every check has passed; the refusal and the
raises keep it by themselves. -/
theorem command_keeps_inv {act : State → State} (h : s.Inv) (hcodes : RaisesErrors checks)
    (hact : s.fault = false → (∀ c ∈ checks, c.1 = false) → (act s).Inv) :
    (command checks act s).Inv :=
  command_keeps (p := State.Inv) (h.send _)
    (fun c hc hfault => h.raise hfault (hcodes c hc)) hact

/-- A command that only answers, such as `DIGEST` and `COUNT`. -/
theorem answer_keeps_inv (data : State → List Byte) (h : s.Inv) (hcodes : RaisesErrors checks) :
    (command checks (fun s => respond (data s) s) s).Inv :=
  command_keeps_inv h hcodes fun _ _ => h.respond _

/-- An action that does not touch the parameter store, `FAULT` and `ERR`, and leaves registers as R35
says. -/
theorem action_inv {t : State} (h : s.Inv) (hok : InstanceOk t)
    (hparams : t.params = s.params := by rfl) (hfault : t.fault = s.fault := by rfl)
    (herr : t.err = s.err := by rfl) : t.Inv where
  err := by rw [hfault, herr]; exact h.err
  params := by rw [hparams, hfault]; exact h.params
  ok := fun _ => hok

/-- A command that needs `LIVE = 1` (60_exceptions.md R270): its action meets a live block with a
well-formed set and registers as R35 says. -/
theorem liveCommand_keeps_inv {act : State → State} (h : s.Inv) (hcodes : RaisesErrors checks)
    (hok : paramsWF s.params = true → InstanceOk s → s.live = true →
      (∀ c ∈ checks, c.1 = false) → InstanceOk (act s))
    (hparams : (act s).params = s.params := by rfl) (hfault : (act s).fault = s.fault := by rfl)
    (herr : (act s).err = s.err := by rfl) :
    (command (notLive s :: checks) act s).Inv := by
  refine command_keeps_inv h (by simpa using hcodes) fun hno hpass => ?_
  obtain ⟨hneeds, hrest⟩ := List.forall_mem_cons.mp hpass
  have hwf := h.paramsWF_of_no_fault hno
  have hlive : s.live = true := by simpa [notLive] using hneeds
  exact action_inv h (hok hwf (h.ok hwf) hlive hrest) hparams hfault herr

/-- A command that absorbs one batch (42_domain_separation.md R159; 43_field_adapter.md R170). -/
theorem batch_keeps_inv (c : ClassCode) (e : State → List Nat) (h : s.Inv)
    (hcodes : RaisesErrors checks) :
    (command (notLive s :: checks) (fun s => respond [] (dsAbsorb c (e s) s)) s).Inv :=
  liveCommand_keeps_inv h hcodes fun hwf hok hlive _ => (hok.dsAbsorb hwf hlive c _).respond _

/-- A command that pushes bytes (44_packing_buffer.md R189 to R191), after its check of the capacity. -/
theorem push_keeps_inv (b : State → List Byte) (h : s.Inv) (hcodes : RaisesErrors checks)
    (hcap : bufFull s (b s).length ∈ checks) :
    (command (notLive s :: checks) (fun s => respond [] (bufPush (b s) s)) s).Inv :=
  liveCommand_keeps_inv h hcodes fun _ hok hlive hpass =>
    (hok.bufPush hlive (fits_of_not_bufFull (hpass _ hcap))).respond _

/-- An update of a primitive (44_packing_buffer.md R195): a push, then the extraction. -/
theorem updPrimitive_keeps_inv (k : Kind) (b : List Byte) (h : s.Inv)
    (hcodes : RaisesErrors checks) : (updPrimitive k b checks s).Inv :=
  liveCommand_keeps_inv h (by simpa using hcodes) fun hwf hok hlive hpass =>
    have hfits := fits_of_not_bufFull (hpass _ (List.mem_append_right _ List.mem_cons_self))
    ((hok.bufPush hlive hfits).extract hwf hlive).respond _

/-- `NEW` (45_hasher.md R231) does not need `LIVE = 1`: what it leaves does not depend on the registers
before. -/
theorem new_keeps_inv (pk : PackMode) (pad : PadPolicy) (ovr : Bool) (len : Len) (h : s.Inv) :
    (command [badScalarWidth s, badOverride ovr len]
      (fun s => respond [] (buildInstance (newCfg s.params pk pad ovr len) s)) s).Inv :=
  command_keeps_inv h (by simp) fun hno hpass =>
    have hmaxb := newCfg_maxb_pos s.params pk pad (hpass (badOverride ovr len) (by simp))
    action_inv h ((buildInstance_ok (h.paramsWF_of_no_fault hno) hmaxb).respond _)

/-- `STATUS` (45_hasher.md R241) answers also while `FAULT = 1`. -/
theorem status_keeps_inv (len : Len) (h : s.Inv) :
    (if len = 0 then respond [statusFlags s, s.err] s
      else command [badLen len.toNat 0] id s).Inv := by
  split
  · exact h.respond _
  · exact command_keeps_inv h (by simp) fun _ _ => h

theorem refuseHeader_keeps_inv (h : s.Inv) : (refuseHeader s).Inv :=
  command_keeps_inv h (by simp) fun _ _ => h

/-- Every command ends in a state, and that state has the invariant. -/
theorem exec_keeps_inv (i : Instr) (h : s.Inv) : ∃ t, exec i s = .next t ∧ t.Inv := by
  have hP (hwf : paramsWF s.params = true) : 0 < s.params.P := modulus_pos_of_paramsWF hwf
  cases i with
  | status len => exact ⟨_, rfl, status_keeps_inv len h⟩
  | new pk pad ovr len => exact ⟨_, rfl, new_keeps_inv pk pad ovr len h⟩
  | reset len =>
    exact ⟨_, rfl, liveCommand_keeps_inv h (by simp) fun hwf hok hlive _ =>
      (hok.resetInstance hwf hlive).respond _⟩
  | digest len => exact ⟨_, rfl, answer_keeps_inv _ h (by simp)⟩
  | finalize len =>
    exact ⟨_, rfl, liveCommand_keeps_inv h (by simp) fun hwf _ _ _ => finalizeInstance_ok hwf⟩
  | count len => exact ⟨_, rfl, answer_keeps_inv _ h (by simp)⟩
  | permute w => exact ⟨_, rfl, answer_keeps_inv _ h (by simp)⟩
  | compress w => exact ⟨_, rfl, answer_keeps_inv _ h (by simp)⟩
  | spAbsorb e =>
    exact ⟨_, rfl, liveCommand_keeps_inv h (by simp) fun hwf hok hlive _ =>
      (hok.setSponge hlive (spAbsorb_ok (hP hwf) e hok.sponge)).respond _⟩
  | spSqueeze len =>
    exact ⟨_, rfl, liveCommand_keeps_inv h (by simp) fun hwf hok hlive _ =>
      (hok.setSponge hlive (spSqueeze_ok (hP hwf) _ hok.sponge)).respond _⟩
  | dsAbsorb c e => exact ⟨_, rfl, batch_keeps_inv c _ h (by simp)⟩
  | absorbDomain ctx =>
    exact ⟨_, rfl, liveCommand_keeps_inv h (by simp) fun hwf hok hlive _ =>
      (hok.setTweak hlive (contextTweak_ok (hP hwf) ctx hok.tweak)).respond _⟩
  | updBase e => exact ⟨_, rfl, batch_keeps_inv .base _ h (by simp)⟩
  | updScalar b => exact ⟨_, rfl, batch_keeps_inv .scalar _ h (by simp)⟩
  | updPoint e => exact ⟨_, rfl, batch_keeps_inv .pointFinite _ h (by simp)⟩
  | updPointInf len => exact ⟨_, rfl, batch_keeps_inv .pointInf _ h (by simp)⟩
  | pushTag k len =>
    exact ⟨_, rfl, push_keeps_inv (fun s => [tagAt s.params k]) h (by simp) (by simp)⟩
  | pushBytes b => exact ⟨_, rfl, push_keeps_inv (fun _ => b) h (by simp) (by simp)⟩
  | pushVarint b =>
    exact ⟨_, rfl, push_keeps_inv (fun _ => leb128 (leNat b)) h (by simp) (by simp)⟩
  | pbExtract len =>
    exact ⟨_, rfl, liveCommand_keeps_inv h (by simp) fun hwf hok hlive _ =>
      (hok.extract hwf hlive).respond _⟩
  | pbFlush len =>
    exact ⟨_, rfl, liveCommand_keeps_inv h (by simp) fun hwf hok hlive _ =>
      (hok.flush hwf hlive).respond _⟩
  | updBool b => exact ⟨_, rfl, updPrimitive_keeps_inv .bool b h (by simp)⟩
  | updU8 b => exact ⟨_, rfl, updPrimitive_keeps_inv .u8 b h (by simp)⟩
  | updU16 b => exact ⟨_, rfl, updPrimitive_keeps_inv .u16 b h (by simp)⟩
  | updU32 b => exact ⟨_, rfl, updPrimitive_keeps_inv .u32 b h (by simp)⟩
  | updU64 b => exact ⟨_, rfl, updPrimitive_keeps_inv .u64 b h (by simp)⟩
  | updU128 b => exact ⟨_, rfl, updPrimitive_keeps_inv .u128 b h (by simp)⟩
  | updI8 b => exact ⟨_, rfl, updPrimitive_keeps_inv .i8 b h (by simp)⟩
  | updI16 b => exact ⟨_, rfl, updPrimitive_keeps_inv .i16 b h (by simp)⟩
  | updI32 b => exact ⟨_, rfl, updPrimitive_keeps_inv .i32 b h (by simp)⟩
  | updI64 b => exact ⟨_, rfl, updPrimitive_keeps_inv .i64 b h (by simp)⟩
  | updI128 b => exact ⟨_, rfl, updPrimitive_keeps_inv .i128 b h (by simp)⟩
  | updStr b => exact ⟨_, rfl, updPrimitive_keeps_inv .str b h (by simp)⟩
  | updBytes b => exact ⟨_, rfl, updPrimitive_keeps_inv .bytes b h (by simp)⟩

end Commands

end Sys2Proof.Machine

open Sys2Proof Sys2Proof.Machine

/-- Settles O21: a step acts on `RST`, or runs a command or answers a bad header with its bytes consumed,
or waits; each leaves the invariant. -/
theorem everyStepKeepsTheInvariant : Obligations.EveryStepKeepsTheInvariant := by
  intro s t h hstep
  rcases step_cases hstep with ⟨-, hreset⟩ | ⟨-, i, -, hrun⟩ | ⟨-, e, -, hbad⟩
  · cases hreset
    exact hardwareReset_inv s
  · obtain ⟨u, hu, hinv⟩ := exec_keeps_inv i (h.setDin (fetch s).rest)
    rw [hu] at hrun
    cases hrun
    split
    · exact hinv
    · exact h
  · cases hbad
    split
    · exact refuseHeader_keeps_inv (h.setDin _)
    · exact h
end

section
/-! The parameter store (20_memory.md R61): every operation leaves it as it is, from the actions of the
commands up to one step. -/

namespace Sys2Proof.Machine

section ParameterStore

variable {s : State}

/-! ### The actions of the commands -/

@[simp] theorem extract_params : (extract s).params = s.params := by
  rw [extract_eq, dsAbsorb_params, State.setBuf_params]

@[simp] theorem flush_params : (flush s).params = s.params := by
  rw [flush_eq, dsAbsorb_params, State.setBuf_params]

@[simp] theorem buildInstance_params (cfg : Cfg) : (buildInstance cfg s).params = s.params := by
  rw [buildInstance_eq]

@[simp] theorem resetInstance_params : (resetInstance s).params = s.params := by
  rw [resetInstance_eq]

@[simp] theorem finalizeInstance_params : (finalizeInstance s).params = s.params := by
  simp [finalizeInstance]

/-! ### Commands -/

/-- Refusing and raising do not write the store, so a command does not when its action does not. -/
theorem command_params {checks : List (Bool × Status)} {act : State → State}
    (hact : (act s).params = s.params) : (command checks act s).params = s.params :=
  command_keeps (p := fun t => t.params = s.params) (refuseFaulted_params s)
    (fun _ _ _ => raise_params s _) fun _ _ => hact

theorem refuseHeader_params : (refuseHeader s).params = s.params :=
  command_params rfl

theorem updPrimitive_params (k : Kind) (b : List Byte) (checks : List (Bool × Status)) :
    (updPrimitive k b checks s).params = s.params :=
  command_params (by simp)

/-- Every command ends in a state with the same parameter store. `STATUS` may answer without going
through `command` (45_hasher.md R241); the updates of primitives share `updPrimitive`. -/
theorem exec_keeps_params (i : Instr) : ∃ t, exec i s = .next t ∧ t.params = s.params := by
  cases i with
  | status len =>
    refine ⟨_, rfl, ?_⟩
    split
    · exact respond_params s _
    · exact command_params rfl
  | updBool | updU8 | updU16 | updU32 | updU64 | updU128 | updI8 | updI16 | updI32 | updI64 | updI128
  | updStr | updBytes => exact ⟨_, rfl, updPrimitive_params ..⟩
  | new | reset | digest | finalize | count | permute | compress | spAbsorb | spSqueeze | dsAbsorb
  | absorbDomain | updBase | updScalar | updPoint | updPointInf | pushTag | pushBytes | pushVarint
  | pbExtract | pbFlush => exact ⟨_, rfl, command_params (by simp)⟩

end ParameterStore

end Sys2Proof.Machine

open Sys2Proof Sys2Proof.Machine

/-- Settles O20: hardware reset keeps the store, and so does a command or the answer to a bad header,
consumed bytes included; a block that waits does not change. -/
theorem parameterStoreIsReadOnly : Obligations.ParameterStoreIsReadOnly := by
  intro s t hstep
  rcases step_cases hstep with ⟨-, hreset⟩ | ⟨-, i, -, hrun⟩ | ⟨-, e, -, hbad⟩
  · cases hreset
    exact hardwareReset_params s
  · obtain ⟨u, hu, hparams⟩ := exec_keeps_params (s := s.setDin (fetch s).rest) i
    rw [hu] at hrun
    cases hrun
    split
    · exact hparams
    · rfl
  · cases hbad
    split
    · exact refuseHeader_params
    · rfl
end

section
/-! The permutation engine (40_permutation.md): its layers as sums and powers reduced once, the cheap
schedule as one sequence of rounds, and `permute` as a bijection of the vectors of `WIDTH` canonical
elements. -/

namespace Sys2Proof.Machine

variable {C : Params}

/-! ### The layers, reduced once (R101 to R108) -/

/-- Each chain of R102 multiplies as many factors as its degree says, with reductions in between; any
other degree is the power by definition. -/
theorem sbox_eq_pow_mod (C : Params) (x : Nat) : sbox C x = x ^ C.d % C.P := by
  unfold sbox
  dsimp only
  split_ifs with h3 h5 h7
  case neg => exact fpow_eq_pow_mod _ _ _
  all_goals
    simp only [fmul, Nat.mod_mul_mod, Nat.mul_mod_mod, *]
    ring_nf

theorem fsum_map_range (P n : Nat) (f : Nat → Nat) :
    fsum P ((List.range n).map f) = (∑ j ∈ Finset.range n, f j) % P :=
  fsum_eq_sum_mod _ _

/-- The sum of all lanes, that both the mix of small widths and the internal mix add. -/
theorem fsum_lanes {x : List Nat} (hx : x.length = C.width) :
    fsum C.P ((List.range C.width).map (lane x)) = x.sum % C.P := by
  rw [fsum_eq_sum_mod, ← vector, vector_lane hx]

theorem extMix_of_small_width (hw : C.width = 2 ∨ C.width = 3) (x : List Nat) :
    extMix C x = extMixSmall C x := if_pos hw

theorem extMix_of_width_four (hw : C.width = 4) (x : List Nat) : extMix C x = m4Blocks C x := by
  simp [extMix, hw]

theorem extMix_of_blocks (hmod : C.width % 4 = 0) (hw : 8 ≤ C.width) (x : List Nat) :
    extMix C x = extMixBlocks C x := by
  rw [extMix, if_neg (by omega), if_neg (by omega), if_pos hmod]

theorem lane_extMixSmall {x : List Nat} {i : Nat} (hx : x.length = C.width) (hi : i < C.width) :
    lane (extMixSmall C x) i = (lane x i + x.sum) % C.P := by
  rw [extMixSmall, lane_vector _ _ hi, fsum_lanes hx, fadd, Nat.add_mod_mod]

theorem lane_intMix {x : List Nat} {i : Nat} (hx : x.length = C.width) (hi : i < C.width) :
    lane (intMix C x) i = (x.sum + lane C.diag i * lane x i) % C.P := by
  rw [intMix, lane_vector _ _ hi, fsum_lanes hx, fadd, fmul, ← Nat.add_mod]

/-- Lane `i` of the block-wise product with `M4` before its reduction (R105). -/
def m4Lane (C : Params) (x : List Nat) (i : Nat) : Nat :=
  ∑ j ∈ Finset.range 4, tableAt C.m4 (i % 4) j * lane x (4 * (i / 4) + j)

theorem lane_m4Blocks (x : List Nat) {i : Nat} (hi : i < C.width) :
    lane (m4Blocks C x) i = m4Lane C x i % C.P := by
  rw [m4Blocks, lane_vector _ _ hi, m4Row, fsum_map_range]
  exact (Finset.sum_nat_mod _ _ _).symm

theorem lane_extMixBlocks (x : List Nat) {i : Nat} (hmod : C.width % 4 = 0) (hi : i < C.width) :
    lane (extMixBlocks C x) i =
      (m4Lane C x i + ∑ j ∈ Finset.range (C.width / 4), m4Lane C x (4 * j + i % 4)) % C.P := by
  have reduced : ∑ j ∈ Finset.range (C.width / 4), lane (m4Blocks C x) (4 * j + i % 4) =
      ∑ j ∈ Finset.range (C.width / 4), m4Lane C x (4 * j + i % 4) % C.P := by
    refine Finset.sum_congr rfl fun j hj => lane_m4Blocks x ?_
    have := Finset.mem_range.mp hj
    omega
  rw [extMixBlocks, lane_vector _ _ hi, fsum_map_range, reduced, ← Finset.sum_nat_mod,
    lane_m4Blocks x hi, fadd, ← Nat.add_mod]

/-! ### The rounds of the cheap schedule (R110 to R113) -/

theorem vector_congr {f g : Nat → Nat} (h : ∀ i, i < C.width → f i = g i) :
    vector C f = vector C g := List.map_congr_left fun i hi => h i (List.mem_range.mp hi)

/-- Lane `i` after the constants and the S-box of round `r`, the two steps that every round begins with
(R103). -/
def sboxStep (C : Params) (r : Nat) (x : List Nat) (i : Nat) : Nat :=
  ((lane x i + tableAt C.rc r i) % C.P) ^ C.d % C.P

theorem fullRound_eq (C : Params) (r : Nat) (x : List Nat) :
    fullRound C r x = extMix C (vector C (sboxStep C r x)) := by
  have step : sboxAll C (addRow C r x) = vector C (sboxStep C r x) := vector_congr fun i hi => by
    rw [addRow, lane_vector _ _ hi, sbox_eq_pow_mod, fadd, sboxStep]
  rw [fullRound, step]

theorem partialRound_eq (C : Params) (r : Nat) (x : List Nat) :
    partialRound C r x =
      intMix C (vector C fun i => if i = 0 then sboxStep C r x 0 else lane x i) := by
  have step : onLane0 C (sbox C) (onLane0 C (fun v => fadd C.P v (tableAt C.rc r 0)) x) =
      vector C (fun i => if i = 0 then sboxStep C r x 0 else lane x i) := vector_congr fun i hi => by
    by_cases h0 : i = 0
    · subst h0
      rw [if_pos rfl, if_pos rfl, onLane0, lane_vector _ _ hi, if_pos rfl, sbox_eq_pow_mod, fadd,
        sboxStep]
    · rw [if_neg h0, if_neg h0, onLane0, lane_vector _ _ hi, if_neg h0]
  rw [partialRound, step]

/-- A sequence of vectors that follows `f` from `start` on is what the rounds of `f` compute. -/
theorem rounds_eq_of_sequence {f : Nat → List Nat → List Nat} {st : Nat → List Nat} {start : Nat}
    (n : Nat) (h : ∀ r, start ≤ r → r < start + n → st (r + 1) = f r (st r)) :
    rounds f start n (st start) = st (start + n) := by
  induction n with
  | zero => rfl
  | succ n ih =>
    rw [rounds_succ, ih fun r hlo hhi => h r hlo (by omega), ← h (start + n) (by omega) (by omega)]
    rfl

/-- R112, R113: the three groups of rounds, one after another. -/
theorem permuteCheap_eq_of_sequence {x : List Nat} {st : Nat → List Nat} (h0 : st 0 = extMix C x)
    (hfull : ∀ r, r < C.rf / 2 ∨ C.rf / 2 + C.rp ≤ r → st (r + 1) = fullRound C r (st r))
    (hpartial : ∀ r, C.rf / 2 ≤ r → r < C.rf / 2 + C.rp → st (r + 1) = partialRound C r (st r)) :
    permuteCheap C x = st (C.rf + C.rp) := by
  have first : rounds (fullRound C) 0 (C.rf / 2) (st 0) = st (0 + C.rf / 2) :=
    rounds_eq_of_sequence _ fun r _ hr => hfull r (.inl (by omega))
  have middle : rounds (partialRound C) (C.rf / 2) C.rp (st (C.rf / 2)) = st (C.rf / 2 + C.rp) :=
    rounds_eq_of_sequence _ hpartial
  have last : rounds (fullRound C) (C.rf / 2 + C.rp) (C.rf + C.rp - (C.rf / 2 + C.rp))
      (st (C.rf / 2 + C.rp)) = st (C.rf / 2 + C.rp + (C.rf + C.rp - (C.rf / 2 + C.rp))) :=
    rounds_eq_of_sequence _ fun r hr _ => hfull r (.inr hr)
  rw [permuteCheap, ← h0, first, Nat.zero_add, middle, last]
  congr 1
  omega

/-! ### Every step of a round is a bijection of the canonical vectors (R120) -/

/-- The vectors of `WIDTH` canonical elements, the set that `permute` works on. -/
def laneVectors (C : Params) : Set (List Nat) := {x | LaneVector C x}

/-- The lanes of such a vector as a function between finite types. -/
def canonicalLanes (hP : 0 < C.P) : laneVectors C → Fin C.width → Fin C.P
  | ⟨x, _, hx⟩, i => ⟨lane x i, lane_lt hP hx i⟩

theorem canonicalLanes_injective (hP : 0 < C.P) :
    Function.Injective (canonicalLanes (C := C) hP) := by
  rintro ⟨x, hx, _⟩ ⟨y, hy, _⟩ h
  exact Subtype.ext <|
    eq_of_lanes hx hy fun i hi => congrArg Fin.val (congrFun h ⟨i, hi⟩)

theorem laneVectors_finite (hP : 0 < C.P) : (laneVectors C).Finite :=
  Set.finite_coe_iff.mp (Finite.of_injective _ (canonicalLanes_injective hP))

/-- On a finite set an injective layer is bijective. -/
theorem bijOn_laneVectors {f : List Nat → List Nat} (hP : 0 < C.P)
    (hmaps : ∀ x, LaneVector C x → LaneVector C (f x))
    (hinj : ∀ x y, LaneVector C x → LaneVector C y → f x = f y → x = y) :
    Set.BijOn f (laneVectors C) (laneVectors C) :=
  ((laneVectors_finite hP).injOn_iff_bijOn_of_mapsTo hmaps).mp fun x hx y hy => hinj x y hx hy

/-- A layer that works on each lane by itself is a bijection when it is injective on each. -/
theorem lanewise_bijOn {g : Nat → Nat → Nat} (hP : 0 < C.P) (hlt : ∀ i v, v < C.P → g i v < C.P)
    (hinj : ∀ i, Set.InjOn (g i) (Set.Iio C.P)) :
    Set.BijOn (fun x => vector C fun i => g i (lane x i)) (laneVectors C) (laneVectors C) := by
  refine bijOn_laneVectors hP ?_ fun x y hx hy h => eq_of_lanes hx.1 hy.1 fun i hi => ?_
  · exact fun x hx => laneVector_vector fun i => hlt i _ (lane_lt hP hx.2 i)
  · refine hinj i (lane_lt hP hx.2 i) (lane_lt hP hy.2 i) ?_
    simpa only [lane_vector _ _ hi] using congrArg (lane · i) h

theorem fadd_injOn (P c : Nat) : Set.InjOn (fadd P · c) (Set.Iio P) := fun _ ha _ hb h =>
  (Nat.ModEq.add_right_cancel' c h).eq_of_lt_of_lt ha hb

/-- In the field of `p` elements a power prime to `p - 1` is injective: zero is the only root of zero,
and the units are a group of order `p - 1`. -/
theorem zmod_pow_injective {p d : Nat} [Fact p.Prime] (hd : d ≠ 0) (hcop : Nat.Coprime d (p - 1)) :
    Function.Injective fun a : ZMod p => a ^ d := by
  intro a b (h : a ^ d = b ^ d)
  have hzero : a = 0 ↔ b = 0 := by rw [← pow_eq_zero_iff hd, h, pow_eq_zero_iff hd]
  by_cases ha : a = 0
  · rw [ha, hzero.mp ha]
  · have hb : b ≠ 0 := mt hzero.mpr ha
    have hcard : Nat.Coprime (Nat.card (ZMod p)ˣ) d := by
      rw [Nat.card_eq_fintype_card, ZMod.card_units]
      exact hcop.symm
    have hunits : Units.mk0 a ha = Units.mk0 b hb :=
      (Nat.Coprime.pow_left_bijective hcard).injective (Units.ext h)
    exact congrArg Units.val hunits

theorem sbox_injOn (hprime : C.P.Prime) (hd : C.d ≠ 0) (hcop : Nat.Coprime C.d (C.P - 1)) :
    Set.InjOn (sbox C) (Set.Iio C.P) := by
  intro a ha b hb h
  have : Fact C.P.Prime := ⟨hprime⟩
  rw [sbox_eq_pow_mod, sbox_eq_pow_mod] at h
  have hpow : (a : ZMod C.P) ^ C.d = (b : ZMod C.P) ^ C.d := by
    exact_mod_cast (ZMod.natCast_eq_natCast_iff _ _ _).mpr h
  have hcast : (a : ZMod C.P) = b := zmod_pow_injective hd hcop hpow
  exact ((ZMod.natCast_eq_natCast_iff a b C.P).mp hcast).eq_of_lt_of_lt ha hb

theorem addRow_bijOn (hP : 0 < C.P) (r : Nat) :
    Set.BijOn (addRow C r) (laneVectors C) (laneVectors C) :=
  lanewise_bijOn (g := fun i v => fadd C.P v (tableAt C.rc r i)) hP (fun _ _ _ => fadd_lt hP _ _)
    fun _ => fadd_injOn _ _

theorem sboxAll_bijOn (hP : 0 < C.P) (hsbox : Set.InjOn (sbox C) (Set.Iio C.P)) :
    Set.BijOn (sboxAll C) (laneVectors C) (laneVectors C) :=
  lanewise_bijOn (g := fun _ => sbox C) hP (fun _ v _ => sbox_lt hP v) fun _ => hsbox

/-- A step on lane 0 is one on each lane, the identity on the others. -/
theorem onLane0_bijOn {f : Nat → Nat} (hP : 0 < C.P) (hlt : ∀ v, f v < C.P)
    (hinj : Set.InjOn f (Set.Iio C.P)) :
    Set.BijOn (onLane0 C f) (laneVectors C) (laneVectors C) := by
  have lanewise : onLane0 C f = fun x => vector C fun i => (if i = 0 then f else id) (lane x i) := by
    funext x
    refine vector_congr fun i _ => ?_
    split_ifs with h0
    · rw [h0]
    · rfl
  rw [lanewise]
  refine lanewise_bijOn hP (fun i v hv => ?_) fun i => ?_
  · split_ifs
    · exact hlt v
    · exact hv
  · split_ifs
    · exact hinj
    · exact Set.injOn_id _

/-! ### The rounds and the schedules (R110 to R114) -/

section Schedules

variable (hP : 0 < C.P) (hsbox : Set.InjOn (sbox C) (Set.Iio C.P))

include hP hsbox

theorem fullRound_bijOn (hmix : Set.BijOn (extMix C) (laneVectors C) (laneVectors C)) (r : Nat) :
    Set.BijOn (fullRound C r) (laneVectors C) (laneVectors C) :=
  hmix.comp ((sboxAll_bijOn hP hsbox).comp (addRow_bijOn hP r))

theorem partialRound_bijOn (hmix : Set.BijOn (intMix C) (laneVectors C) (laneVectors C)) (r : Nat) :
    Set.BijOn (partialRound C r) (laneVectors C) (laneVectors C) :=
  hmix.comp ((onLane0_bijOn hP (sbox_lt hP) hsbox).comp
    (onLane0_bijOn hP (fun _ => fadd_lt hP _ _) (fadd_injOn _ _)))

theorem classicRound_bijOn (hmix : Set.BijOn (mdsMix C) (laneVectors C) (laneVectors C)) (r : Nat) :
    Set.BijOn (classicRound C r) (laneVectors C) (laneVectors C) := by
  by_cases hfull : r < C.rf / 2 ∨ C.rf / 2 + C.rp ≤ r
  · have round : classicRound C r = mdsMix C ∘ sboxAll C ∘ addRow C r := by
      funext x
      simp only [classicRound, if_pos hfull, Function.comp_apply]
    rw [round]
    exact hmix.comp ((sboxAll_bijOn hP hsbox).comp (addRow_bijOn hP r))
  · have round : classicRound C r = mdsMix C ∘ onLane0 C (sbox C) ∘ addRow C r := by
      funext x
      simp only [classicRound, if_neg hfull, Function.comp_apply]
    rw [round]
    exact hmix.comp ((onLane0_bijOn hP (sbox_lt hP) hsbox).comp (addRow_bijOn hP r))

end Schedules

theorem rounds_bijOn {f : Nat → List Nat → List Nat} {s : Set (List Nat)}
    (hf : ∀ r, Set.BijOn (f r) s s) (start n : Nat) : Set.BijOn (rounds f start n) s s := by
  induction n with
  | zero => exact Set.bijOn_id s
  | succ n ih =>
    exact ((hf (start + n)).comp ih).congr fun x _ => (rounds_succ f start n x).symm

theorem permuteCheap_bijOn (hP : 0 < C.P) (hsbox : Set.InjOn (sbox C) (Set.Iio C.P))
    (hext : Set.BijOn (extMix C) (laneVectors C) (laneVectors C))
    (hint : Set.BijOn (intMix C) (laneVectors C) (laneVectors C)) :
    Set.BijOn (permuteCheap C) (laneVectors C) (laneVectors C) :=
  have full := rounds_bijOn (fullRound_bijOn hP hsbox hext)
  (full _ _).comp ((rounds_bijOn (partialRound_bijOn hP hsbox hint) _ _).comp ((full _ _).comp hext))

theorem permuteClassic_bijOn (hP : 0 < C.P) (hsbox : Set.InjOn (sbox C) (Set.Iio C.P))
    (hmds : Set.BijOn (mdsMix C) (laneVectors C) (laneVectors C)) :
    Set.BijOn (permuteClassic C) (laneVectors C) (laneVectors C) :=
  rounds_bijOn (classicRound_bijOn hP hsbox hmds) _ _

theorem permute_of_cheap (h : C.schedule = .cheap) (x : List Nat) :
    permute C x = permuteCheap C x := by
  rw [permute, h]

theorem permute_of_classic (h : C.schedule = .classic) (x : List Nat) :
    permute C x = permuteClassic C x := by
  rw [permute, h]

/-- R9 (c): the check of the parameter set admits three degrees, none of them 0. -/
theorem degree_ne_zero_of_paramsWF (hwf : paramsWF C = true) : C.d ≠ 0 := by
  obtain ⟨-, -, -, -, -, -, -, hd, -⟩ := (paramsCheckIsTheListOfConditions C).mp hwf
  omega

/-! ### The commands (R118, R119) -/

section Commands

variable {s : State}

/-- The check of the elements passes exactly on canonical ones (30_encoding.md R73). -/
theorem badElems_passes_iff {e : List Nat} : (badElems s e).1 = false ↔ Canonical s.params.P e := by
  simp [badElems, Canonical]

theorem badLen_passes_iff {len required : Nat} :
    (badLen len required).1 = false ↔ len = required := by
  simp [badLen]

theorem badWidth_passes_iff : (badWidth s).1 = false ↔ s.params.width = 4 := by
  simp [badWidth]

theorem exec_permute_of_passing {w : List Nat} (hfault : s.fault = false)
    (hw : LaneVector s.params w) :
    exec (.permute w) s = .next (respond (elemData s.params (permute s.params w)) s) := by
  refine congrArg _ (command_of_passing _ hfault ?_)
  simp only [List.forall_mem_cons, badLen_passes_iff, badElems_passes_iff]
  exact ⟨hw.1, hw.2, by simp⟩

theorem exec_compress_of_passing {w : List Nat} (hfault : s.fault = false)
    (hwidth : s.params.width = 4) (hlen : w.length = 3) (hw : Canonical s.params.P w) :
    exec (.compress w) s =
      .next (respond (elemData s.params [lane (permute s.params (w ++ [0])) 0]) s) := by
  refine congrArg _ (command_of_passing _ hfault ?_)
  simp only [List.forall_mem_cons, badWidth_passes_iff, badLen_passes_iff, badElems_passes_iff]
  exact ⟨hwidth, hlen, hw, by simp⟩

end Commands

end Sys2Proof.Machine

open Sys2Proof Sys2Proof.Machine

/-- Settles O24: `sbox_eq_pow_mod`, the chains for the degrees 3, 5 and 7 and the power for any other. -/
theorem sboxIsThePower : Obligations.SboxIsThePower := sbox_eq_pow_mod

/-- Settles O25: both widths take the branch of the closed formula. -/
theorem externalMixOfSmallWidths : Obligations.ExternalMixOfSmallWidths := by
  intro C x hw hx
  refine ⟨extMix_length C x, fun i hi => ?_⟩
  rw [extMix_of_small_width hw]
  exact lane_extMixSmall hx hi

/-- Settles O26: width 4 is one block; a wider width adds the sums over the blocks. -/
theorem externalMixOfBlocks : Obligations.ExternalMixOfBlocks := by
  intro C x i hi
  refine ⟨fun hw => ?_, fun hmod hw => ?_⟩
  · rw [extMix_of_width_four hw]
    exact lane_m4Blocks x hi
  · rw [extMix_of_blocks hmod hw]
    exact lane_extMixBlocks x hmod hi

/-- Settles O27: the length is that of a vector, the lanes are `lane_intMix`. -/
theorem internalMix : Obligations.InternalMix :=
  fun C x hx => ⟨intMix_length C x, fun _ hi => lane_intMix hx hi⟩

/-- Settles O28: the sequence takes a full round outside the partial rounds and a partial round among
them, as `permuteCheap` does. -/
theorem cheapScheduleRoundByRound : Obligations.CheapScheduleRoundByRound := by
  intro C x st hcheap _ h0 hnext
  rw [permute_of_cheap hcheap]
  refine permuteCheap_eq_of_sequence h0 (fun r hr => ?_) fun r hlo hhi => ?_
  · rw [fullRound_eq, hnext, if_pos hr]
    rfl
  · rw [partialRound_eq, hnext, if_neg (by omega)]
    rfl

/-- Settles O30: the schedule chooses the function, and each layer ends in a reduction modulo `P`. -/
theorem permuteStaysInTheField : Obligations.PermuteStaysInTheField :=
  ⟨fun _ x => ⟨fun h => permute_of_cheap h x, fun h => permute_of_classic h x⟩,
    fun _ _ hwf hx => permute_laneVector (modulus_pos_of_paramsWF hwf) hx⟩

/-- Settles O31: the constants, the S-box and the mixing layers are bijections of a finite set of
vectors, and `permute` is a composition of them. -/
theorem permuteIsABijection : Obligations.PermuteIsABijection := by
  intro C hwf hprime hcop hcheap hclassic
  have hP := hprime.pos
  have hsbox := sbox_injOn hprime (degree_ne_zero_of_paramsWF hwf) hcop
  have bij : Set.BijOn (permute C) (laneVectors C) (laneVectors C) := by
    cases hs : C.schedule with
    | cheap =>
      have hext := bijOn_laneVectors hP (fun _ hx => extMix_laneVector hP hx.2)
        fun x y hx hy => (hcheap hs x y hx hy).1
      have hint := bijOn_laneVectors hP (fun _ _ => laneVector_vector fun _ => fadd_lt hP _ _)
        fun x y hx hy => (hcheap hs x y hx hy).2
      rw [funext (permute_of_cheap hs)]
      exact permuteCheap_bijOn hP hsbox hext hint
    | classic =>
      have hmds := bijOn_laneVectors hP (fun _ _ => laneVector_vector fun _ => fsum_lt hP _)
        (hclassic hs)
      rw [funext (permute_of_classic hs)]
      exact permuteClassic_bijOn hP hsbox hmds
  exact ⟨fun _ _ hx hy h => bij.injOn hx hy h, fun _ hy => bij.surjOn hy⟩

/-- Settles O32: every check of the two commands passes, and the action is the response; the one
element of `COMPRESS` is its bytes. -/
theorem permuteAndCompressAnswer : Obligations.PermuteAndCompressAnswer := by
  refine ⟨fun w s hfault hw => exec_permute_of_passing hfault hw,
    fun a b c s hfault hwidth ha hb hc => ?_⟩
  have canonical : Canonical s.params.P [a, b, c] := by simp [Canonical, ha, hb, hc]
  rw [exec_compress_of_passing hfault hwidth rfl canonical, elemData, elemBytes, elemBytes,
    List.append_nil]
  rfl
end
section
/-! The duplex sponge (41_sponge.md): the absorbing loop as a fold over the elements and the squeezing
loop as a recursion over the elements read, one element at a time; the laws that follow from that form. -/

namespace Sys2Proof.Machine

variable {C : Params}

/-! ### The lane the next element goes to (R131, R133) -/

theorem permuteSponge_eq (sp : Sponge) :
    permuteSponge C sp = ⟨permute C sp.lanes, sp.mode, 0⟩ := rfl

theorem absorbStart_of_absorbing {sp : Sponge} (hmode : sp.mode = .absorbing) :
    absorbStart C sp = if sp.idx = C.rate then permuteSponge C sp else sp := by
  obtain ⟨lanes, mode, idx⟩ := sp
  cases hmode
  rfl

theorem absorbStart_of_full {sp : Sponge} (hmode : sp.mode = .absorbing) (hidx : sp.idx = C.rate) :
    absorbStart C sp = permuteSponge C sp := (absorbStart_of_absorbing hmode).trans (if_pos hidx)

theorem absorbStart_of_room {sp : Sponge} (hmode : sp.mode = .absorbing) (hidx : sp.idx < C.rate) :
    absorbStart C sp = sp := (absorbStart_of_absorbing hmode).trans (if_neg hidx.ne)

theorem absorbStart_of_squeezing {sp : Sponge} (hmode : sp.mode = .squeezing) :
    absorbStart C sp =
      ⟨if C.sqzAbsPermute then permute C sp.lanes else sp.lanes, .absorbing, 0⟩ := by
  obtain ⟨lanes, mode, idx⟩ := sp
  cases hmode
  exact congrArg (Sponge.mk · .absorbing 0) (apply_ite Sponge.lanes _ _ _)

@[simp] theorem absorbStart_mode (sp : Sponge) : (absorbStart C sp).mode = .absorbing := by
  cases hmode : sp.mode with
  | squeezing => rw [absorbStart_of_squeezing hmode]
  | absorbing =>
    rw [absorbStart_of_absorbing hmode, apply_ite Sponge.mode, permuteSponge_eq, ite_self, hmode]

/-- The first step leaves room in the block. -/
theorem absorbStart_idx_lt {sp : Sponge} (hrate : 1 ≤ C.rate) (hidx : sp.idx ≤ C.rate) :
    (absorbStart C sp).idx < C.rate := by
  cases hmode : sp.mode with
  | squeezing => rwa [absorbStart_of_squeezing hmode]
  | absorbing =>
    rcases hidx.lt_or_eq with hroom | hfull
    · rwa [absorbStart_of_room hmode hroom]
    · rwa [absorbStart_of_full hmode hfull]

theorem absorbStart_idx_of_absorbing {sp : Sponge} (hidx : sp.idx ≤ C.rate)
    (hmode : sp.mode = .absorbing) : (absorbStart C sp).idx = sp.idx % C.rate := by
  rcases hidx.lt_or_eq with hroom | hfull
  · rw [absorbStart_of_room hmode hroom, Nat.mod_eq_of_lt hroom]
  · rw [absorbStart_of_full hmode hfull, hfull, Nat.mod_self]
    rfl

theorem absorbStart_absorbStart {sp : Sponge} (hrate : 1 ≤ C.rate) (hidx : sp.idx ≤ C.rate) :
    absorbStart C (absorbStart C sp) = absorbStart C sp :=
  absorbStart_of_room (absorbStart_mode sp) (absorbStart_idx_lt hrate hidx)

/-! ### Absorbing one element at a time -/

/-- Absorb one element: after the first step of an absorb, add it to the next rate lane. -/
def absorbNext (C : Params) (sp : Sponge) (v : Nat) : Sponge :=
  let q := absorbStart C sp
  { lanes := q.lanes.set (C.capacity + q.idx) (fadd C.P (lane q.lanes (C.capacity + q.idx)) v)
    mode := .absorbing
    idx := q.idx + 1 }

theorem absorbNext_eq {sp q : Sponge} (h : absorbStart C sp = q) (v : Nat) :
    absorbNext C sp v =
      { lanes := q.lanes.set (C.capacity + q.idx) (fadd C.P (lane q.lanes (C.capacity + q.idx)) v)
        mode := .absorbing
        idx := q.idx + 1 } := h ▸ rfl

@[simp] theorem absorbNext_mode (sp : Sponge) (v : Nat) : (absorbNext C sp v).mode = .absorbing := rfl

@[simp] theorem absorbNext_idx (sp : Sponge) (v : Nat) :
    (absorbNext C sp v).idx = (absorbStart C sp).idx + 1 := rfl

theorem absorbNext_idx_le {sp : Sponge} (hrate : 1 ≤ C.rate) (hidx : sp.idx ≤ C.rate) (v : Nat) :
    (absorbNext C sp v).idx ≤ C.rate := absorbStart_idx_lt hrate hidx

/-- The first step of an absorb is part of its first element. -/
theorem foldl_absorbNext_absorbStart {sp : Sponge} (hrate : 1 ≤ C.rate) (hidx : sp.idx ≤ C.rate)
    {e : List Nat} (he : e ≠ []) :
    e.foldl (absorbNext C) (absorbStart C sp) = e.foldl (absorbNext C) sp := by
  cases e with
  | nil => contradiction
  | cons v e =>
    have first : absorbNext C (absorbStart C sp) v = absorbNext C sp v := by
      rw [absorbNext_eq (absorbStart_absorbStart hrate hidx), absorbNext_eq rfl]
    rw [List.foldl_cons, List.foldl_cons, first]

theorem foldl_absorbNext_permuteSponge {sp : Sponge} (hrate : 1 ≤ C.rate)
    (hmode : sp.mode = .absorbing) (hidx : sp.idx = C.rate) {e : List Nat} (he : e ≠ []) :
    e.foldl (absorbNext C) (permuteSponge C sp) = e.foldl (absorbNext C) sp := by
  rw [← absorbStart_of_full hmode hidx, foldl_absorbNext_absorbStart hrate hidx.le he]

/-- Elements that fit into the block are added to consecutive lanes. -/
theorem foldl_absorbNext_of_fits {sp : Sponge} (hmode : sp.mode = .absorbing) (e : List Nat)
    (hfit : sp.idx + e.length ≤ C.rate) :
    e.foldl (absorbNext C) sp =
      { sp with
        lanes := addLanes C.P (C.capacity + sp.idx) sp.lanes e
        idx := sp.idx + e.length } := by
  induction e generalizing sp with
  | nil => simp
  | cons v e ih =>
    rw [List.length_cons] at hfit
    have room : absorbStart C sp = sp := absorbStart_of_room hmode (by omega)
    rw [List.foldl_cons, absorbNext_eq room, ih rfl (by dsimp only; omega), addLanes_cons,
      List.length_cons]
    simp only [hmode, Nat.add_assoc, Nat.add_comm 1]

/-- With fuel for all lanes it has to pass, the loop of R131 absorbs the elements one by one: a block
that the elements do not fit into is filled, and permuted before the first of the others. -/
theorem absorbLoop_eq_foldl (hrate : 1 ≤ C.rate) (fuel : Nat) {sp : Sponge} (e : List Nat)
    (hmode : sp.mode = .absorbing) (hidx : sp.idx ≤ C.rate)
    (hfuel : sp.idx + e.length ≤ fuel * C.rate) :
    absorbLoop C fuel sp e = e.foldl (absorbNext C) sp := by
  induction fuel generalizing sp e with
  | zero =>
    have he : e = [] := List.eq_nil_of_length_eq_zero (by omega)
    rw [he]
    rfl
  | succ fuel ih =>
    by_cases hfit : sp.idx + e.length ≤ C.rate
    case pos => rw [absorbLoop_last C fuel sp e hfit, foldl_absorbNext_of_fits hmode e hfit]
    case neg =>
      rw [Nat.succ_mul] at hfuel
      have htake : sp.idx + (e.take (C.rate - sp.idx)).length = C.rate := by
        rw [List.length_take]
        omega
      have hdrop : e.drop (C.rate - sp.idx) ≠ [] := by
        rw [ne_eq, List.drop_eq_nil_iff]
        omega
      have filled := foldl_absorbNext_of_fits hmode _ htake.le
      rw [htake] at filled
      calc absorbLoop C (fuel + 1) sp e
          = absorbLoop C fuel
              (permuteSponge C ((e.take (C.rate - sp.idx)).foldl (absorbNext C) sp))
              (e.drop (C.rate - sp.idx)) := by
            rw [absorbLoop_more C fuel sp e (by omega) hidx, filled]
            rfl
        _ = (e.drop (C.rate - sp.idx)).foldl (absorbNext C)
              ((e.take (C.rate - sp.idx)).foldl (absorbNext C) sp) := by
            rw [filled, ← foldl_absorbNext_permuteSponge hrate (by exact hmode) (by rfl) hdrop]
            refine ih _ hmode (Nat.zero_le _) ?_
            rw [permuteSponge_eq, List.length_drop]
            dsimp only
            omega
        _ = e.foldl (absorbNext C) sp := by rw [← List.foldl_append, List.take_append_drop]

/-- `n + 1` passes of the loops reach `n` lanes beyond any position in the first block. -/
theorem fuel_reaches {i n r : Nat} (hr : 1 ≤ r) (hi : i ≤ r) : i + n ≤ (n + 1) * r := by
  have := Nat.le_mul_of_pos_right n hr
  rw [Nat.succ_mul]
  omega

theorem spAbsorb_eq_foldl {sp : Sponge} (hrate : 1 ≤ C.rate) (hidx : sp.idx ≤ C.rate)
    (e : List Nat) : spAbsorb C sp e = e.foldl (absorbNext C) sp := by
  cases e with
  | nil => rfl
  | cons v e =>
    have hstart : (absorbStart C sp).idx ≤ C.rate := (absorbStart_idx_lt hrate hidx).le
    rw [← foldl_absorbNext_absorbStart hrate hidx (List.cons_ne_nil v e)]
    exact absorbLoop_eq_foldl hrate _ _ (absorbStart_mode sp) hstart (fuel_reaches hrate hstart)

theorem spAbsorb_idx_le {sp : Sponge} (hrate : 1 ≤ C.rate) (hidx : sp.idx ≤ C.rate) (e : List Nat) :
    (spAbsorb C sp e).idx ≤ C.rate := by
  rw [spAbsorb_eq_foldl hrate hidx]
  induction e generalizing sp with
  | nil => exact hidx
  | cons v e ih => exact ih (absorbNext_idx_le hrate hidx v)

/-- R139 for absorbs. -/
theorem spAbsorb_append {sp : Sponge} (hrate : 1 ≤ C.rate) (hidx : sp.idx ≤ C.rate)
    (a b : List Nat) : spAbsorb C sp (a ++ b) = spAbsorb C (spAbsorb C sp a) b := by
  rw [spAbsorb_eq_foldl hrate (spAbsorb_idx_le hrate hidx a), spAbsorb_eq_foldl hrate hidx,
    spAbsorb_eq_foldl hrate hidx, List.foldl_append]

theorem spAbsorb_snoc {sp : Sponge} (hrate : 1 ≤ C.rate) (hidx : sp.idx ≤ C.rate) (e : List Nat)
    (v : Nat) : spAbsorb C sp (e ++ [v]) = absorbNext C (spAbsorb C sp e) v := by
  rw [spAbsorb_eq_foldl hrate hidx, spAbsorb_eq_foldl hrate hidx, List.foldl_append, List.foldl_cons,
    List.foldl_nil]

/-! ### Mode and index after an absorb (R140) -/

theorem spAbsorb_mode {sp : Sponge} (hrate : 1 ≤ C.rate) (hidx : sp.idx ≤ C.rate) {e : List Nat}
    (he : e ≠ []) : (spAbsorb C sp e).mode = .absorbing := by
  rw [← List.dropLast_append_getLast he, spAbsorb_snoc hrate hidx]
  rfl

theorem absorbNext_idx_of_absorbing {sp : Sponge} (hidx : sp.idx ≤ C.rate)
    (hmode : sp.mode = .absorbing) (v : Nat) : (absorbNext C sp v).idx = sp.idx % C.rate + 1 := by
  rw [absorbNext_idx, absorbStart_idx_of_absorbing hidx hmode]

theorem foldl_absorbNext_idx {sp : Sponge} (hrate : 1 ≤ C.rate) (hidx : sp.idx ≤ C.rate)
    (hmode : sp.mode = .absorbing) (v : Nat) (e : List Nat) :
    ((v :: e).foldl (absorbNext C) sp).idx = (sp.idx + e.length) % C.rate + 1 := by
  induction e generalizing sp v with
  | nil => exact absorbNext_idx_of_absorbing hidx hmode v
  | cons w e ih =>
    rw [List.foldl_cons, ih (absorbNext_idx_le hrate hidx v) (absorbNext_mode sp v) w,
      absorbNext_idx_of_absorbing hidx hmode, Nat.add_assoc, Nat.mod_add_mod, Nat.add_comm 1,
      List.length_cons]

theorem spAbsorb_idx_of_absorbing {sp : Sponge} {e : List Nat} (hrate : 1 ≤ C.rate)
    (hidx : sp.idx ≤ C.rate) (hmode : sp.mode = .absorbing) (he : e ≠ []) :
    (spAbsorb C sp e).idx = (sp.idx + e.length - 1) % C.rate + 1 := by
  cases e with
  | nil => contradiction
  | cons v e =>
    rw [spAbsorb_eq_foldl hrate hidx, foldl_absorbNext_idx hrate hidx hmode]
    rfl

/-- An absorb after a squeeze counts from rate lane 0 (R133). -/
theorem spAbsorb_idx_of_squeezing {sp : Sponge} {e : List Nat} (hrate : 1 ≤ C.rate)
    (hidx : sp.idx ≤ C.rate) (hmode : sp.mode = .squeezing) (he : e ≠ []) :
    (spAbsorb C sp e).idx = (e.length - 1) % C.rate + 1 := by
  have hzero : (absorbStart C sp).idx = 0 := by rw [absorbStart_of_squeezing hmode]
  rw [spAbsorb_eq_foldl hrate hidx, ← foldl_absorbNext_absorbStart hrate hidx he,
    ← spAbsorb_eq_foldl hrate (by omega),
    spAbsorb_idx_of_absorbing hrate (by omega) (absorbStart_mode sp) he, hzero, Nat.zero_add]

/-! ### Squeezing one element at a time (R134) -/

/-- The sponge as the next element is read from it: permuted when the rate lanes are used up. -/
def squeezeBlock (C : Params) (sp : Sponge) : Sponge :=
  if sp.idx = C.rate then permuteSponge C sp else sp

theorem squeezeBlock_of_full {sp : Sponge} (hidx : sp.idx = C.rate) :
    squeezeBlock C sp = permuteSponge C sp := if_pos hidx

theorem squeezeBlock_of_room {sp : Sponge} (hidx : sp.idx < C.rate) : squeezeBlock C sp = sp :=
  if_neg hidx.ne

@[simp] theorem squeezeBlock_mode (sp : Sponge) : (squeezeBlock C sp).mode = sp.mode :=
  (apply_ite Sponge.mode _ _ _).trans (ite_self _)

theorem squeezeBlock_idx {sp : Sponge} (hidx : sp.idx ≤ C.rate) :
    (squeezeBlock C sp).idx = sp.idx % C.rate := by
  rcases hidx.lt_or_eq with hroom | hfull
  · rw [squeezeBlock_of_room hroom, Nat.mod_eq_of_lt hroom]
  · rw [squeezeBlock_of_full hfull, hfull, Nat.mod_self]
    rfl

/-- The sponge with one more lane read. -/
def squeezeNext (C : Params) (sp : Sponge) : Sponge :=
  { squeezeBlock C sp with idx := (squeezeBlock C sp).idx + 1 }

/-- The lane that is read next. -/
def squeezeElem (C : Params) (sp : Sponge) : Nat :=
  lane (squeezeBlock C sp).lanes (C.capacity + (squeezeBlock C sp).idx)

theorem squeezeNext_eq {sp q : Sponge} (h : squeezeBlock C sp = q) :
    squeezeNext C sp = { q with idx := q.idx + 1 } := h ▸ rfl

theorem squeezeElem_eq {sp q : Sponge} (h : squeezeBlock C sp = q) :
    squeezeElem C sp = lane q.lanes (C.capacity + q.idx) := h ▸ rfl

theorem squeezeNext_idx {sp : Sponge} (hidx : sp.idx ≤ C.rate) :
    (squeezeNext C sp).idx = sp.idx % C.rate + 1 := congrArg (· + 1) (squeezeBlock_idx hidx)

theorem squeezeNext_idx_le {sp : Sponge} (hrate : 1 ≤ C.rate) (hidx : sp.idx ≤ C.rate) :
    (squeezeNext C sp).idx ≤ C.rate := by
  rw [squeezeNext_idx hidx]
  exact Nat.mod_lt _ hrate

/-- Squeeze `n` elements one by one, in the sponge as it is: the elements and the sponge after. -/
def squeezeSteps (C : Params) : Nat → Sponge → List Nat × Sponge
  | 0, sp => ([], sp)
  | n + 1, sp =>
    let r := squeezeSteps C n (squeezeNext C sp)
    (squeezeElem C sp :: r.1, r.2)

theorem squeezeSteps_zero (sp : Sponge) : squeezeSteps C 0 sp = ([], sp) := rfl

theorem squeezeSteps_succ (n : Nat) (sp : Sponge) :
    squeezeSteps C (n + 1) sp =
      (squeezeElem C sp :: (squeezeSteps C n (squeezeNext C sp)).1,
        (squeezeSteps C n (squeezeNext C sp)).2) := rfl

theorem squeezeSteps_add (m n : Nat) (sp : Sponge) :
    squeezeSteps C (m + n) sp =
      ((squeezeSteps C m sp).1 ++ (squeezeSteps C n (squeezeSteps C m sp).2).1,
        (squeezeSteps C n (squeezeSteps C m sp).2).2) := by
  induction m generalizing sp with
  | zero => rw [Nat.zero_add, squeezeSteps_zero, List.nil_append]
  | succ m ih => rw [Nat.succ_add, squeezeSteps_succ, squeezeSteps_succ, ih, List.cons_append]

@[simp] theorem squeezeSteps_mode (n : Nat) (sp : Sponge) :
    (squeezeSteps C n sp).2.mode = sp.mode := by
  induction n generalizing sp with
  | zero => rfl
  | succ n ih => exact (ih _).trans (squeezeBlock_mode sp)

theorem squeezeSteps_idx_le {sp : Sponge} (hrate : 1 ≤ C.rate) (hidx : sp.idx ≤ C.rate) (n : Nat) :
    (squeezeSteps C n sp).2.idx ≤ C.rate := by
  induction n generalizing sp with
  | zero => exact hidx
  | succ n ih => exact ih (squeezeNext_idx_le hrate hidx)

theorem squeezeSteps_succ_idx {sp : Sponge} (hrate : 1 ≤ C.rate) (hidx : sp.idx ≤ C.rate) (n : Nat) :
    (squeezeSteps C (n + 1) sp).2.idx = (sp.idx + n) % C.rate + 1 := by
  induction n generalizing sp with
  | zero => exact squeezeNext_idx hidx
  | succ n ih =>
    rw [squeezeSteps_succ, ih (squeezeNext_idx_le hrate hidx), squeezeNext_idx hidx, Nat.add_assoc,
      Nat.mod_add_mod, Nat.add_comm 1]

/-- The permutation of a used-up block is part of reading its first element. -/
theorem squeezeSteps_permuteSponge {sp : Sponge} (hrate : 1 ≤ C.rate) (hidx : sp.idx = C.rate)
    (n : Nat) : squeezeSteps C (n + 1) (permuteSponge C sp) = squeezeSteps C (n + 1) sp := by
  have same : squeezeBlock C (permuteSponge C sp) = squeezeBlock C sp := by
    rw [squeezeBlock_of_full hidx, squeezeBlock_of_room (sp := permuteSponge C sp) hrate]
  rw [squeezeSteps_succ, squeezeSteps_succ, squeezeElem_eq same, squeezeNext_eq same,
    squeezeElem_eq rfl, squeezeNext_eq rfl]

/-- Elements that the block can serve are its consecutive lanes. -/
theorem squeezeSteps_of_fits {sp : Sponge} (n : Nat) (hfit : sp.idx + n ≤ C.rate) :
    squeezeSteps C n sp =
      ((List.range n).map (fun j => lane sp.lanes (C.capacity + sp.idx + j)),
        { sp with idx := sp.idx + n }) := by
  induction n generalizing sp with
  | zero => rfl
  | succ n ih =>
    have room : squeezeBlock C sp = sp := squeezeBlock_of_room (by omega)
    rw [squeezeSteps_succ, squeezeElem_eq room, squeezeNext_eq room, ih (by dsimp only; omega),
      List.range_succ_eq_map, List.map_cons, List.map_map]
    simp only [Function.comp_def, Nat.add_zero, Nat.succ_eq_add_one, Nat.add_assoc, Nat.add_comm 1]

/-- With fuel for all lanes it has to pass, the loop of R134 reads the elements one by one. -/
theorem squeezeLoop_eq_squeezeSteps (hrate : 1 ≤ C.rate) (fuel : Nat) {sp : Sponge} (n : Nat)
    (hidx : sp.idx ≤ C.rate) (hfuel : sp.idx + n ≤ fuel * C.rate) :
    squeezeLoop C fuel sp n = squeezeSteps C n sp := by
  induction fuel generalizing sp n with
  | zero =>
    have hn : n = 0 := by omega
    rw [hn]
    rfl
  | succ fuel ih =>
    by_cases hfit : sp.idx + n ≤ C.rate
    case pos => rw [squeezeLoop_last C fuel sp n hfit, squeezeSteps_of_fits n hfit]
    case neg =>
      rw [Nat.succ_mul] at hfuel
      obtain ⟨k, hk⟩ : ∃ k, n = (C.rate - sp.idx) + (k + 1) :=
        ⟨n - (C.rate - sp.idx) - 1, by omega⟩
      have hrest : n - (C.rate - sp.idx) = k + 1 := by omega
      have hblock : sp.idx + (C.rate - sp.idx) = C.rate := by omega
      have used := squeezeSteps_of_fits (C := C) (C.rate - sp.idx) hblock.le
      rw [hblock] at used
      have tail : squeezeLoop C fuel { sp with lanes := permute C sp.lanes, idx := 0 } (k + 1) =
          squeezeSteps C (k + 1) { sp with idx := C.rate } := by
        rw [← squeezeSteps_permuteSponge hrate rfl]
        exact ih (k + 1) (Nat.zero_le _) (by dsimp only; omega)
      rw [squeezeLoop_more C fuel sp n (by omega) hidx, hrest, tail, hk,
        squeezeSteps_add (C.rate - sp.idx), used]

/-! ### The squeeze (R134, R135) -/

theorem squeezeStart_of_squeezing {sp : Sponge} (hmode : sp.mode = .squeezing) :
    squeezeStart C sp = sp := by
  obtain ⟨lanes, mode, idx⟩ := sp
  cases hmode
  rfl

theorem squeezeStart_of_absorbing {sp : Sponge} (hmode : sp.mode = .absorbing) :
    squeezeStart C sp = ⟨permute C sp.lanes, .squeezing, 0⟩ := by
  obtain ⟨lanes, mode, idx⟩ := sp
  cases hmode
  rfl

@[simp] theorem squeezeStart_mode (sp : Sponge) : (squeezeStart C sp).mode = .squeezing := by
  cases hmode : sp.mode with
  | absorbing => rw [squeezeStart_of_absorbing hmode]
  | squeezing => rwa [squeezeStart_of_squeezing hmode]

theorem squeezeStart_idx_le {sp : Sponge} (hidx : sp.idx ≤ C.rate) :
    (squeezeStart C sp).idx ≤ C.rate := by
  cases hmode : sp.mode with
  | absorbing => rw [squeezeStart_of_absorbing hmode]; exact Nat.zero_le _
  | squeezing => rwa [squeezeStart_of_squeezing hmode]

theorem spSqueeze_eq {sp q : Sponge} (h : squeezeStart C sp = q) (n : Nat) :
    spSqueeze C sp n = squeezeLoop C (n + 1) q n := h ▸ rfl

/-- A squeeze that the block can serve, in a sponge that squeezes. -/
theorem spSqueeze_of_fits {sp : Sponge} (hmode : sp.mode = .squeezing) (n : Nat)
    (hfit : sp.idx + n ≤ C.rate) :
    spSqueeze C sp n =
      ((List.range n).map (fun j => lane sp.lanes (C.capacity + sp.idx + j)),
        { sp with idx := sp.idx + n }) := by
  rw [spSqueeze_eq (squeezeStart_of_squeezing hmode), squeezeLoop_last C n sp n hfit]

theorem spSqueeze_eq_squeezeSteps {sp : Sponge} (hrate : 1 ≤ C.rate) (hidx : sp.idx ≤ C.rate)
    (n : Nat) : spSqueeze C sp n = squeezeSteps C n (squeezeStart C sp) :=
  have hstart := squeezeStart_idx_le hidx
  squeezeLoop_eq_squeezeSteps hrate _ n hstart (fuel_reaches hrate hstart)

theorem spSqueeze_mode {sp : Sponge} (hrate : 1 ≤ C.rate) (hidx : sp.idx ≤ C.rate) (n : Nat) :
    (spSqueeze C sp n).2.mode = .squeezing := by
  rw [spSqueeze_eq_squeezeSteps hrate hidx, squeezeSteps_mode, squeezeStart_mode]

theorem spSqueeze_idx_le {sp : Sponge} (hrate : 1 ≤ C.rate) (hidx : sp.idx ≤ C.rate) (n : Nat) :
    (spSqueeze C sp n).2.idx ≤ C.rate := by
  rw [spSqueeze_eq_squeezeSteps hrate hidx]
  exact squeezeSteps_idx_le hrate (squeezeStart_idx_le hidx) n

/-- R139 for squeezes: the second squeeze finds the sponge squeezing and goes on in it. -/
theorem spSqueeze_add {sp : Sponge} (hrate : 1 ≤ C.rate) (hidx : sp.idx ≤ C.rate) (a b : Nat) :
    spSqueeze C sp (a + b) =
      ((spSqueeze C sp a).1 ++ (spSqueeze C (spSqueeze C sp a).2 b).1,
        (spSqueeze C (spSqueeze C sp a).2 b).2) := by
  rw [spSqueeze_eq_squeezeSteps hrate (spSqueeze_idx_le hrate hidx a) b,
    squeezeStart_of_squeezing (spSqueeze_mode hrate hidx a), spSqueeze_eq_squeezeSteps hrate hidx,
    spSqueeze_eq_squeezeSteps hrate hidx, squeezeSteps_add]

theorem spSqueeze_one {sp : Sponge} (hrate : 1 ≤ C.rate) (hidx : sp.idx ≤ C.rate)
    (hmode : sp.mode = .squeezing) :
    spSqueeze C sp 1 = ([squeezeElem C sp], squeezeNext C sp) := by
  rw [spSqueeze_eq_squeezeSteps hrate hidx, squeezeStart_of_squeezing hmode]
  rfl

theorem spSqueeze_idx {sp : Sponge} {n : Nat} (hrate : 1 ≤ C.rate) (hidx : sp.idx ≤ C.rate)
    (hn : 0 < n) :
    (spSqueeze C sp n).2.idx = ((squeezeStart C sp).idx + n - 1) % C.rate + 1 := by
  obtain ⟨m, rfl⟩ : ∃ m, n = m + 1 := ⟨n - 1, by omega⟩
  rw [spSqueeze_eq_squeezeSteps hrate hidx, squeezeSteps_succ_idx hrate (squeezeStart_idx_le hidx)]
  rfl

/-! ### The lanes of one block (R136) -/

/-- `addLanes` lane by lane. -/
theorem addLanes_getD (P i : Nat) (lanes e : List Nat) (hlen : i + e.length ≤ lanes.length)
    (l : Nat) :
    (addLanes P i lanes e).getD l 0 =
      if i ≤ l ∧ l < i + e.length then (lanes.getD l 0 + e.getD (l - i) 0) % P
      else lanes.getD l 0 := by
  induction e generalizing i lanes with
  | nil => rw [addLanes_nil, List.length_nil, if_neg (by omega)]
  | cons v e ih =>
    rw [List.length_cons] at hlen ⊢
    rw [addLanes_cons, ih _ _ (by rw [List.length_set]; omega)]
    rcases lt_trichotomy l i with hlt | rfl | hgt
    · rw [if_neg (by omega), if_neg (by omega), List.getD_eq_getElem?_getD,
        List.getElem?_set_ne hlt.ne', List.getD_eq_getElem?_getD]
    · rw [if_neg (by omega), if_pos (by omega), List.getD_eq_getElem?_getD,
        List.getElem?_set_self (by omega), Nat.sub_self]
      rfl
    · have hsub : l - i = (l - (i + 1)) + 1 := by omega
      have hset : (lanes.set i (fadd P (lane lanes i) v)).getD l 0 = lanes.getD l 0 := by
        rw [List.getD_eq_getElem?_getD, List.getElem?_set_ne hgt.ne, List.getD_eq_getElem?_getD]
      rw [hset, hsub, List.getD_cons_succ]
      exact if_congr (by omega) rfl rfl

/-- Consecutive lanes are a segment of the vector, as long as it has them. -/
theorem map_lane_eq_take_drop {lanes : List Nat} {i n : Nat} (hlen : i + n ≤ lanes.length) :
    (List.range n).map (fun j => lane lanes (i + j)) = (lanes.drop i).take n := by
  refine List.ext_getElem (by simp; omega) fun j hj _ => ?_
  have hjn : j < n := by simpa using hj
  rw [List.getElem_map, List.getElem_range, List.getElem_take, List.getElem_drop]
  exact List.getD_eq_getElem _ _ (by omega)

/-- An absorb that the block has room for, in a sponge that absorbs. -/
theorem spAbsorb_of_fits {sp : Sponge} (hmode : sp.mode = .absorbing) (hidx : sp.idx < C.rate)
    (e : List Nat) (hfit : sp.idx + e.length ≤ C.rate) :
    spAbsorb C sp e =
      { sp with
        lanes := addLanes C.P (C.capacity + sp.idx) sp.lanes e
        idx := sp.idx + e.length } := by
  rw [spAbsorb_eq_foldl (by omega) hidx.le, foldl_absorbNext_of_fits hmode e hfit]

/-! ### The commands (R137, R138) -/

theorem notLive_passes_iff {s : State} : (notLive s).1 = false ↔ s.live = true :=
  (Bool.not_eq_false' _).to_iff

theorem exec_spAbsorb_of_passing {s : State} {e : List Nat} (hs : s.Ready)
    (he : Canonical s.params.P e) :
    exec (.spAbsorb e) s = .next (respond [] (s.setSponge (spAbsorb s.params s.sponge e))) := by
  obtain ⟨hfault, hlive⟩ := hs
  refine congrArg _ (command_of_passing _ hfault ?_)
  simp only [List.forall_mem_cons, notLive_passes_iff, badElems_passes_iff]
  exact ⟨hlive, he, by simp⟩

theorem exec_spSqueeze_of_passing {s : State} (hs : s.Ready) (len : Len) :
    exec (.spSqueeze len) s =
      .next (respond (elemData s.params (spSqueeze s.params s.sponge len.toNat).1)
        (s.setSponge (spSqueeze s.params s.sponge len.toNat).2)) := by
  obtain ⟨hfault, hlive⟩ := hs
  refine congrArg _ (command_of_passing _ hfault ?_)
  simp only [List.forall_mem_cons, notLive_passes_iff]
  exact ⟨hlive, by simp⟩

end Sys2Proof.Machine

open Sys2Proof Sys2Proof.Machine

/-- Settles O33: the element is one more step of the fold, and the three cases of its first step are a
sponge that squeezes, a full block, and a block with room. -/
theorem absorbIsElementwise : Obligations.AbsorbIsElementwise := by
  intro C sp e v hrate hidx q lanes i
  have hle : q.idx ≤ C.rate := spAbsorb_idx_le hrate hidx e
  have start : absorbStart C q = ⟨lanes, .absorbing, i⟩ := by
    cases hmode : q.mode with
    | squeezing => simp [lanes, i, absorbStart_of_squeezing hmode, hmode]
    | absorbing =>
      rcases hle.lt_or_eq with hroom | hfull
      · rw [absorbStart_of_room hmode hroom]
        simp [lanes, i, hmode, hroom.ne, Sponge.ext_iff]
      · rw [absorbStart_of_full hmode hfull]
        simp [lanes, i, hmode, hfull, permuteSponge_eq]
  rw [spAbsorb_snoc hrate hidx, absorbNext_eq start]
  rfl

/-- Settles O34: the element is a squeeze of one from the sponge that `n` elements leave. -/
theorem squeezeIsElementwise : Obligations.SqueezeIsElementwise := by
  intro C sp n hrate hidx q lanes i
  have hmode : q.mode = .squeezing := spSqueeze_mode hrate hidx n
  have hle : q.idx ≤ C.rate := spSqueeze_idx_le hrate hidx n
  have block : squeezeBlock C q = ⟨lanes, .squeezing, i⟩ := by
    by_cases hfull : q.idx = C.rate
    · rw [squeezeBlock_of_full hfull]
      simp [lanes, i, hfull, permuteSponge_eq, hmode]
    · rw [squeezeBlock_of_room (lt_of_le_of_ne hle hfull)]
      simp [lanes, i, hfull, Sponge.ext_iff, hmode]
  rw [spSqueeze_add hrate hidx, spSqueeze_one hrate hle hmode,
    squeezeElem_eq block, squeezeNext_eq block]
  rfl

/-- Settles O35: both operations act element by element, and their second call goes on where the first
one stopped. -/
theorem spongeSplittingLaw : Obligations.SpongeSplittingLaw := by
  refine ⟨fun C sp a b hrate hidx => spAbsorb_append hrate hidx a b, fun C sp a b hrate hidx => ?_⟩
  rw [spSqueeze_add hrate hidx]
  exact ⟨rfl, rfl⟩

/-- Settles O37: each element moves the index on by one modulo `RATE`, from the index that the first
step leaves. -/
theorem spongeTransitions : Obligations.SpongeTransitions := by
  intro C sp e hrate hidx he
  have hlen : 0 < e.length := List.length_pos_iff.mpr he
  have absorbing (hmode : sp.mode = .absorbing) := spAbsorb_idx_of_absorbing hrate hidx hmode he
  have squeezed := spSqueeze_idx hrate hidx hlen
  refine ⟨spAbsorb_mode hrate hidx he, fun hmode _ => absorbing hmode, fun hmode hfull => ?_,
    fun hmode => spAbsorb_idx_of_squeezing hrate hidx hmode he, spSqueeze_mode hrate hidx _,
    fun hmode => ?_, fun hmode => ?_⟩
  · rw [absorbing hmode, hfull, Nat.add_sub_assoc hlen, Nat.add_mod_left]
  · rw [squeezed, squeezeStart_of_absorbing hmode, Nat.zero_add]
  · rw [squeezed, squeezeStart_of_squeezing hmode]

/-- Settles O38: within one block each operation is a single pass over the lanes from
`CAPACITY + IDX` on. -/
theorem capacityLanesAreHidden : Obligations.CapacityLanesAreHidden := by
  intro C sp e hlen
  refine ⟨fun hmode hidx hfit l => ?_, fun hmode n hfit => ?_⟩
  · rw [spAbsorb_of_fits hmode hidx e hfit]
    exact addLanes_getD C.P _ sp.lanes e (by omega) l
  · rw [spSqueeze_of_fits hmode n hfit, map_lane_eq_take_drop (by omega)]

/-- Settles O36: an empty absorb does not enter the loop, and an empty squeeze is its first step. -/
theorem emptyAbsorbAndEmptySqueeze : Obligations.EmptyAbsorbAndEmptySqueeze := by
  refine fun C sp => ⟨rfl, fun hmode => ?_, fun hmode => ?_⟩
  · rw [spSqueeze_eq (squeezeStart_of_absorbing hmode)]
    rfl
  · rw [spSqueeze_eq (squeezeStart_of_squeezing hmode)]
    rfl

/-- Settles O39: every check passes, and the action is the response of the sponge operation. -/
theorem spongeCommandsComplete : Obligations.SpongeCommandsComplete :=
  fun _ hs => ⟨fun _ he => exec_spAbsorb_of_passing hs he, exec_spSqueeze_of_passing hs⟩
end

section
/-! The domain separation tweaker (42_domain_separation.md): the transform as one element after another,
what a pending tweak adds to each, and the record that a batch leaves; an installed context and the
digest. -/

namespace Sys2Proof.Machine

variable {C : Params}

/-! ### One element (R152) -/

/-- What the pending tweak adds to an element at lane `l`. -/
def tweakShare (t : Tweak) (l : Nat) : Nat := if tweakApplies t l then lane t.vec l else 0

theorem tweakShare_of_applies {t : Tweak} {l : Nat} (h : tweakApplies t l = true) :
    tweakShare t l = lane t.vec l := if_pos h

theorem tweakShare_of_not_applies {t : Tweak} {l : Nat} (h : tweakApplies t l = false) :
    tweakShare t l = 0 := if_neg (Bool.eq_false_iff.mp h)

theorem tweakApplies_eq (t : Tweak) (l : Nat) :
    tweakApplies t l = (t.present && (!t.align || l == 0) && decide (0 < t.rem)) := rfl

theorem tweakApplies_of_absent {t : Tweak} (h : t.present = false) (l : Nat) :
    tweakApplies t l = false := by
  rw [tweakApplies_eq, h, Bool.false_and, Bool.false_and]

theorem tweakApplies_of_waiting {t : Tweak} {l : Nat} (h : t.align = true) (hl : l ≠ 0) :
    tweakApplies t l = false := by
  rw [tweakApplies_eq, h, beq_false_of_ne hl, Bool.not_true, Bool.or_self, Bool.and_false,
    Bool.false_and]

theorem tweakApplies_of_started {t : Tweak} (hpres : t.present = true) (halign : t.align = false)
    (hrem : 1 ≤ t.rem) (l : Nat) : tweakApplies t l = true := by
  rw [tweakApplies_eq, hpres, halign]
  exact decide_eq_true hrem

theorem tweakApplies_at_lane_zero {t : Tweak} (hpres : t.present = true) (hrem : 1 ≤ t.rem) :
    tweakApplies t 0 = true := by
  rw [tweakApplies_eq, hpres, beq_self_eq_true, Bool.or_true]
  exact decide_eq_true hrem

theorem tweakElem_of_applies {t : Tweak} {l : Nat} (h : tweakApplies t l = true) (c : ClassCode)
    (v : Nat) :
    tweakElem C c l t v =
      (fadd C.P (fadd C.P v (classConstAt C c l)) (lane t.vec l), consumeTweak C t) := if_pos h

theorem tweakElem_of_not_applies {t : Tweak} {l : Nat} (h : tweakApplies t l = false)
    (c : ClassCode) (v : Nat) : tweakElem C c l t v = (fadd C.P v (classConstAt C c l), t) :=
  if_neg (Bool.eq_false_iff.mp h)

theorem tweakElem_fst (c : ClassCode) (l : Nat) (t : Tweak) (v : Nat) :
    (tweakElem C c l t v).1 = (v + classConstAt C c l + tweakShare t l) % C.P := by
  cases h : tweakApplies t l with
  | true =>
    rw [tweakElem_of_applies h, tweakShare_of_applies h]
    exact Nat.mod_add_mod _ _ _
  | false =>
    rw [tweakElem_of_not_applies h, tweakShare_of_not_applies h]
    rfl

/-! ### The cursor is not read inside a batch (R152) -/

theorem consumeTweak_setCur (t : Tweak) (x : Nat) :
    consumeTweak C { t with cur := x } = { consumeTweak C t with cur := x } := by
  rcases Nat.lt_or_ge 1 t.rem with hmore | hlast
  · rw [consumeTweak_more C hmore, consumeTweak_more C (by exact hmore)]
  · rw [consumeTweak_last C hlast, consumeTweak_last C (by exact hlast)]

theorem tweakElem_setCur (c : ClassCode) (l : Nat) (t : Tweak) (x v : Nat) :
    tweakElem C c l { t with cur := x } v =
      ((tweakElem C c l t v).1, { (tweakElem C c l t v).2 with cur := x }) := by
  cases h : tweakApplies t l with
  | true => rw [tweakElem_of_applies h, tweakElem_of_applies (by exact h), consumeTweak_setCur]
  | false => rw [tweakElem_of_not_applies h, tweakElem_of_not_applies (by exact h)]

theorem tweakLoop_cons (c : ClassCode) (cur p : Nat) (t : Tweak) (v : Nat) (e : List Nat) :
    tweakLoop C c cur p t (v :: e) =
      let r := tweakElem C c ((cur + p) % C.rate) t v
      (r.1 :: (tweakLoop C c cur (p + 1) r.2 e).1, (tweakLoop C c cur (p + 1) r.2 e).2) := rfl

/-- Starting `k` lanes further on is the same as starting at position `k`. -/
theorem tweakLoop_advance (c : ClassCode) (cur k x p : Nat) (t : Tweak) (e : List Nat) :
    tweakLoop C c ((cur + k) % C.rate) p { t with cur := x } e =
      ((tweakLoop C c cur (k + p) t e).1, { (tweakLoop C c cur (k + p) t e).2 with cur := x }) := by
  induction e generalizing p t with
  | nil => rfl
  | cons v e ih =>
    have hlane : ((cur + k) % C.rate + p) % C.rate = (cur + (k + p)) % C.rate := by
      rw [Nat.mod_add_mod, Nat.add_assoc]
    rw [tweakLoop_cons, tweakLoop_cons, hlane, tweakElem_setCur]
    dsimp only
    rw [ih, Nat.add_assoc]

/-! ### The transform element by element -/

theorem dsTransform_eq (c : ClassCode) (t : Tweak) (e : List Nat) :
    dsTransform C c t e =
      ((tweakLoop C c t.cur 0 t e).1,
        { (tweakLoop C c t.cur 0 t e).2 with cur := (t.cur + e.length) % C.rate }) := rfl

/-- The transform of a batch in two parts: the second part goes on from the record of the first. -/
theorem dsTransform_append (c : ClassCode) (t : Tweak) (a b : List Nat) :
    dsTransform C c t (a ++ b) =
      ((dsTransform C c t a).1 ++ (dsTransform C c (dsTransform C c t a).2 b).1,
        (dsTransform C c (dsTransform C c t a).2 b).2) := by
  rw [dsTransform_eq, dsTransform_eq, dsTransform_eq, tweakLoop_append, tweakLoop_advance,
    Nat.zero_add, Nat.add_zero, List.length_append, Nat.mod_add_mod, Nat.add_assoc]

/-- The record after one element. -/
def tweakNext (C : Params) (c : ClassCode) (t : Tweak) (v : Nat) : Tweak :=
  { (tweakElem C c (t.cur % C.rate) t v).2 with cur := (t.cur + 1) % C.rate }

theorem tweakNext_eq {c : ClassCode} {t : Tweak} {v : Nat} {r : Nat × Tweak}
    (h : tweakElem C c (t.cur % C.rate) t v = r) :
    tweakNext C c t v = { r.2 with cur := (t.cur + 1) % C.rate } := h ▸ rfl

theorem dsTransform_cons (c : ClassCode) (t : Tweak) (v : Nat) (e : List Nat) :
    dsTransform C c t (v :: e) =
      ((tweakElem C c (t.cur % C.rate) t v).1 :: (dsTransform C c (tweakNext C c t v) e).1,
        (dsTransform C c (tweakNext C c t v) e).2) :=
  dsTransform_append c t [v] e

theorem dsTransform_snd_cons (c : ClassCode) (t : Tweak) (v : Nat) (e : List Nat) :
    (dsTransform C c t (v :: e)).2 = (dsTransform C c (tweakNext C c t v) e).2 := by
  rw [dsTransform_cons]

theorem dsTransform_length (c : ClassCode) (t : Tweak) (e : List Nat) :
    (dsTransform C c t e).1.length = e.length := tweakLoop_length C c t.cur 0 t e

theorem dsTransform_cur (c : ClassCode) (t : Tweak) (e : List Nat) :
    (dsTransform C c t e).2.cur = (t.cur + e.length) % C.rate := rfl

/-- The element at position `p` gets the constant of its class and lane, and what the tweak that the
`p` elements before it leave adds to it. -/
theorem dsTransform_getD (c : ClassCode) (t : Tweak) {e : List Nat} {p : Nat} (hp : p < e.length) :
    (dsTransform C c t e).1.getD p 0 =
      (e.getD p 0 + classConstAt C c ((t.cur + p) % C.rate)
        + tweakShare (dsTransform C c t (e.take p)).2 ((t.cur + p) % C.rate)) % C.P := by
  have htake : (e.take p).length = p := List.length_take_of_le hp.le
  have hsplit : e = e.take p ++ e.getD p 0 :: e.drop (p + 1) := by
    rw [List.getD_eq_getElem _ _ hp, List.getElem_cons_drop, List.take_append_drop]
  conv_lhs => rw [hsplit, dsTransform_append, dsTransform_cons]
  rw [List.getD_append_right _ _ _ _ (by rw [dsTransform_length, htake]), dsTransform_length, htake,
    Nat.sub_self, List.getD_cons_zero, tweakElem_fst, dsTransform_cur, htake, Nat.mod_mod]

/-! ### A tweak that does not act on a batch (R153, R154) -/

/-- The pending tweak, if any, does not apply to the next `n` elements. -/
def TweakIdle (C : Params) (t : Tweak) (n : Nat) : Prop :=
  ∀ p, p < n → tweakApplies t ((t.cur + p) % C.rate) = false

theorem tweakIdle_of_absent {t : Tweak} (h : t.present = false) (n : Nat) : TweakIdle C t n :=
  fun _ _ => tweakApplies_of_absent h _

theorem TweakIdle.mono {t : Tweak} {m n : Nat} (h : TweakIdle C t n) (hmn : m ≤ n) :
    TweakIdle C t m := fun p hp => h p (hp.trans_le hmn)

/-- What is left of an idle stretch after its first `m` elements. -/
theorem TweakIdle.advance {t : Tweak} {m n : Nat} (h : TweakIdle C t (m + n)) :
    TweakIdle C { t with cur := (t.cur + m) % C.rate } n := by
  intro p hp
  have hlane := h (m + p) (by omega)
  rwa [← Nat.add_assoc, ← Nat.mod_add_mod] at hlane

theorem dsTransform_snd_of_idle (c : ClassCode) {t : Tweak} {e : List Nat}
    (h : TweakIdle C t e.length) :
    (dsTransform C c t e).2 = { t with cur := (t.cur + e.length) % C.rate } := by
  induction e generalizing t with
  | nil => rfl
  | cons v e ih =>
    have hnot : tweakApplies t (t.cur % C.rate) = false := h 0 (Nat.succ_pos _)
    have hnext := tweakNext_eq (tweakElem_of_not_applies (C := C) hnot c v)
    have hrest : TweakIdle C (tweakNext C c t v) e.length := by
      rw [List.length_cons, Nat.add_comm] at h
      exact hnext ▸ h.advance
    rw [dsTransform_snd_cons, ih hrest, hnext, List.length_cons, Nat.mod_add_mod, Nat.add_assoc,
      Nat.add_comm 1]

theorem dsTransform_getD_of_idle (c : ClassCode) {t : Tweak} {e : List Nat} {p : Nat}
    (h : TweakIdle C t e.length) (hp : p < e.length) :
    (dsTransform C c t e).1.getD p 0 =
      (e.getD p 0 + classConstAt C c ((t.cur + p) % C.rate)) % C.P := by
  have hbefore : (e.take p).length ≤ e.length := List.length_take_le' _ _
  have hshare := tweakShare_of_not_applies (h p hp)
  rw [dsTransform_getD c t hp, dsTransform_snd_of_idle c (h.mono hbefore)]
  exact congrArg (fun share => (_ + share) % C.P) hshare

/-- Idle tweaks on the same cursor give the same elements. -/
theorem dsTransform_fst_eq_of_idle (c : ClassCode) {t u : Tweak} {e : List Nat}
    (hcur : t.cur = u.cur) (ht : TweakIdle C t e.length) (hu : TweakIdle C u e.length) :
    (dsTransform C c t e).1 = (dsTransform C c u e).1 := by
  have hlen := dsTransform_length (C := C) c t e
  refine List.ext_getElem (hlen.trans (dsTransform_length c u e).symm) fun p hpt hpu => ?_
  have hp : p < e.length := hlen ▸ hpt
  rw [← List.getD_eq_getElem _ 0 hpt, ← List.getD_eq_getElem _ 0 hpu,
    dsTransform_getD_of_idle c ht hp, dsTransform_getD_of_idle c hu hp, hcur]

/-! ### A tweak that has started (R154) -/

theorem tweakNext_of_applies_last (c : ClassCode) {t : Tweak} (v : Nat)
    (happ : tweakApplies t (t.cur % C.rate) = true) (hrem : t.rem ≤ 1) :
    tweakNext C c t v = { zeroTweak C with cur := (t.cur + 1) % C.rate } := by
  rw [tweakNext_eq (tweakElem_of_applies happ c v), consumeTweak_last C hrem]
  rfl

theorem tweakNext_of_applies_more (c : ClassCode) {t : Tweak} (v : Nat)
    (happ : tweakApplies t (t.cur % C.rate) = true) (hrem : 1 < t.rem) :
    tweakNext C c t v =
      { t with cur := (t.cur + 1) % C.rate, rem := t.rem - 1, align := false } := by
  rw [tweakNext_eq (tweakElem_of_applies happ c v), consumeTweak_more C hrem]

/-- Each element uses up a lane of a started tweak, and the last lane clears it. -/
theorem dsTransform_snd_of_started (c : ClassCode) {t : Tweak} (e : List Nat)
    (hpres : t.present = true) (halign : t.align = false) (hrem : 1 ≤ t.rem) :
    (dsTransform C c t e).2 =
      if e.length < t.rem then
        { t with cur := (t.cur + e.length) % C.rate, rem := t.rem - e.length }
      else { zeroTweak C with cur := (t.cur + e.length) % C.rate } := by
  induction e generalizing t with
  | nil => exact (if_pos hrem).symm
  | cons v e ih =>
    have happ := tweakApplies_of_started hpres halign hrem (t.cur % C.rate)
    have hcur : ((t.cur + 1) % C.rate + e.length) % C.rate =
        (t.cur + (v :: e).length) % C.rate := by
      rw [Nat.mod_add_mod, List.length_cons, Nat.add_assoc, Nat.add_comm 1]
    rw [dsTransform_snd_cons, ← hcur, List.length_cons]
    rcases hrem.eq_or_lt with hlast | hmore
    · rw [tweakNext_of_applies_last c v happ hlast.ge, if_neg (by omega),
        dsTransform_snd_of_idle c (tweakIdle_of_absent rfl _)]
    · have hleft : 1 ≤ t.rem - 1 := by omega
      have hsub : t.rem - 1 - e.length = t.rem - (e.length + 1) := by omega
      rw [tweakNext_of_applies_more c v happ hmore, ih (by exact hpres) (by rfl) (by exact hleft)]
      dsimp only
      rw [hsub, if_congr (Nat.lt_sub_iff_add_lt) rfl rfl, halign]

/-- What a started tweak adds to the element after the batch `e`. -/
theorem tweakShare_of_started (c : ClassCode) {t : Tweak} (e : List Nat) (l : Nat)
    (hpres : t.present = true) (halign : t.align = false) (hrem : 1 ≤ t.rem) :
    tweakShare (dsTransform C c t e).2 l = if e.length < t.rem then lane t.vec l else 0 := by
  rw [dsTransform_snd_of_started c e hpres halign hrem]
  split
  · next hlt =>
    exact tweakShare_of_applies
      (tweakApplies_of_started (by exact hpres) (by exact halign) (by exact Nat.sub_pos_of_lt hlt) l)
  · exact tweakShare_of_not_applies (tweakApplies_of_absent rfl l)

/-! ### A tweak that waits for lane 0 (R154) -/

/-- The number of elements before the next lane 0. -/
def lanesToBlock (C : Params) (t : Tweak) : Nat := (C.rate - t.cur) % C.rate

theorem lanesToBlock_eq {t : Tweak} (hcur : t.cur < C.rate) :
    lanesToBlock C t = if t.cur = 0 then 0 else C.rate - t.cur := by
  unfold lanesToBlock
  split
  · next h0 => rw [h0, Nat.sub_zero, Nat.mod_self]
  · exact Nat.mod_eq_of_lt (by omega)

/-- Lanes count from 0 again at the block's start. -/
theorem lane_after_lanesToBlock {t : Tweak} (hcur : t.cur < C.rate) (k : Nat) :
    (t.cur + (lanesToBlock C t + k)) % C.rate = k % C.rate := by
  rw [lanesToBlock_eq hcur]
  split
  · next h0 => rw [h0, Nat.zero_add, Nat.zero_add]
  · rw [← Nat.add_assoc, Nat.add_sub_cancel' hcur.le, Nat.add_mod_left]

theorem lane_ne_zero_of_lt_lanesToBlock {t : Tweak} {p : Nat} (hcur : t.cur < C.rate)
    (hp : p < lanesToBlock C t) : (t.cur + p) % C.rate ≠ 0 := by
  rw [lanesToBlock_eq hcur] at hp
  split at hp
  · omega
  · rw [Nat.mod_eq_of_lt (by omega)]
    omega

theorem tweakIdle_of_waiting {t : Tweak} {n : Nat} (halign : t.align = true) (hcur : t.cur < C.rate)
    (hn : n ≤ lanesToBlock C t) : TweakIdle C t n := fun _ hp =>
  tweakApplies_of_waiting halign (lane_ne_zero_of_lt_lanesToBlock hcur (hp.trans_le hn))

/-- At lane 0 a waiting tweak is as good as started. -/
theorem dsTransform_snd_at_lane_zero (c : ClassCode) {t : Tweak} {e : List Nat}
    (hlane : t.cur % C.rate = 0) (hpres : t.present = true) (hrem : 1 ≤ t.rem) (he : e ≠ []) :
    (dsTransform C c t e).2 = (dsTransform C c { t with align := false } e).2 := by
  cases e with
  | nil => contradiction
  | cons v e =>
    have happ : tweakApplies t (t.cur % C.rate) = true :=
      hlane ▸ tweakApplies_at_lane_zero hpres hrem
    have hstarted := tweakApplies_of_started (t := { t with align := false }) hpres rfl hrem
      (t.cur % C.rate)
    have hnext : tweakNext C c t v = tweakNext C c { t with align := false } v := by
      rcases hrem.eq_or_lt with hlast | hmore
      · rw [tweakNext_of_applies_last c v happ hlast.ge,
          tweakNext_of_applies_last c v hstarted hlast.ge]
      · rw [tweakNext_of_applies_more c v happ hmore, tweakNext_of_applies_more c v hstarted hmore]
    rw [dsTransform_snd_cons, dsTransform_snd_cons, hnext]

/-- The record after a batch that reaches the next lane 0: the tweak waits before it and has started
from there. -/
theorem dsTransform_snd_of_waiting (c : ClassCode) {t : Tweak} {e : List Nat} (hcur : t.cur < C.rate)
    (hpres : t.present = true) (halign : t.align = true) (hrem : t.rem = C.rate)
    (hlen : lanesToBlock C t < e.length) :
    (dsTransform C c t e).2 =
      if e.length < lanesToBlock C t + C.rate then
        { t with
          cur := (t.cur + e.length) % C.rate
          rem := C.rate - (e.length - lanesToBlock C t)
          align := false }
      else { zeroTweak C with cur := (t.cur + e.length) % C.rate } := by
  have hpos : 1 ≤ t.rem := by omega
  have htake : (e.take (lanesToBlock C t)).length = lanesToBlock C t :=
    List.length_take_of_le hlen.le
  have hrest : e.drop (lanesToBlock C t) ≠ [] := mt List.drop_eq_nil_iff.mp hlen.not_ge
  have hblock : (t.cur + lanesToBlock C t) % C.rate = 0 := by
    simpa using lane_after_lanesToBlock hcur 0
  have hwait : (dsTransform C c t (e.take (lanesToBlock C t))).2 = { t with cur := 0 } := by
    rw [dsTransform_snd_of_idle c (tweakIdle_of_waiting halign hcur htake.le), htake, hblock]
  have hend : (0 + (e.length - lanesToBlock C t)) % C.rate = (t.cur + e.length) % C.rate := by
    rw [Nat.zero_add, ← lane_after_lanesToBlock hcur, Nat.add_sub_cancel' hlen.le]
  calc (dsTransform C c t e).2
      = (dsTransform C c { t with cur := 0 } (e.drop (lanesToBlock C t))).2 := by
        rw [← hwait, ← congrArg Prod.snd (dsTransform_append c t _ _), List.take_append_drop]
    _ = (dsTransform C c { t with cur := 0, align := false } (e.drop (lanesToBlock C t))).2 :=
        dsTransform_snd_at_lane_zero c (Nat.zero_mod _) hpres hpos hrest
    _ = _ := by
        rw [dsTransform_snd_of_started c _ (by exact hpres) (by rfl) (by exact hpos),
          List.length_drop]
        dsimp only
        rw [hend, hrem, if_congr (Nat.sub_lt_iff_lt_add' hlen.le) rfl rfl]

/-- What a waiting tweak adds to the element after the batch `e`. -/
theorem tweakShare_of_waiting (c : ClassCode) {t : Tweak} (e : List Nat) (hcur : t.cur < C.rate)
    (hpres : t.present = true) (halign : t.align = true) (hrem : t.rem = C.rate) :
    tweakShare (dsTransform C c t e).2 ((t.cur + e.length) % C.rate) =
      if lanesToBlock C t ≤ e.length ∧ e.length < lanesToBlock C t + C.rate then
        lane t.vec (e.length - lanesToBlock C t) else 0 := by
  have hpos : 1 ≤ t.rem := by omega
  rcases lt_trichotomy e.length (lanesToBlock C t) with hbefore | hat | hafter
  · rw [if_neg (by omega), dsTransform_snd_of_idle c (tweakIdle_of_waiting halign hcur hbefore.le)]
    exact tweakShare_of_not_applies
      (tweakApplies_of_waiting halign (lane_ne_zero_of_lt_lanesToBlock hcur hbefore))
  · have hlane : (t.cur + e.length) % C.rate = 0 := by
      simpa [hat] using lane_after_lanesToBlock hcur 0
    rw [if_pos (by omega), dsTransform_snd_of_idle c (tweakIdle_of_waiting halign hcur hat.le), hlane,
      hat, Nat.sub_self]
    exact tweakShare_of_applies (tweakApplies_at_lane_zero hpres hpos)
  · rw [dsTransform_snd_of_waiting c hcur hpres halign hrem hafter]
    by_cases hin : e.length < lanesToBlock C t + C.rate
    · have hlane := lane_after_lanesToBlock hcur (e.length - lanesToBlock C t)
      rw [Nat.add_sub_cancel' hafter.le, Nat.mod_eq_of_lt (a := _ - _) (by omega)] at hlane
      rw [if_pos hin, if_pos ⟨hafter.le, hin⟩, hlane]
      exact tweakShare_of_applies
        (tweakApplies_of_started (by exact hpres) (by rfl) (by exact Nat.sub_pos_of_lt (by omega)) _)
    · rw [if_neg hin, if_neg fun h => hin h.2]
      exact tweakShare_of_not_applies (tweakApplies_of_absent rfl _)

/-! ### Batches on the live registers (R155, R161) -/

theorem dsAbsorb_append (c : ClassCode) (a b : List Nat) {s : State} (hrate : 1 ≤ s.params.rate)
    (hidx : s.sponge.idx ≤ s.params.rate) :
    dsAbsorb c (a ++ b) s = dsAbsorb c b (dsAbsorb c a s) := by
  have hsponge : (dsAbsorb c (a ++ b) s).sponge = (dsAbsorb c b (dsAbsorb c a s)).sponge := by
    rw [dsAbsorb_sponge, dsTransform_append, spAbsorb_append hrate hidx]
    rfl
  have htweak : (dsAbsorb c (a ++ b) s).tweak = (dsAbsorb c b (dsAbsorb c a s)).tweak := by
    rw [dsAbsorb_tweak, dsTransform_append]
    rfl
  have hcount : (dsAbsorb c (a ++ b) s).count = (dsAbsorb c b (dsAbsorb c a s)).count := by
    rw [dsAbsorb_count, dsAbsorb_count, dsAbsorb_count, List.length_append, BitVec.ofNat_add,
      BitVec.add_assoc]
  exact State.ext hsponge rfl htweak hcount rfl rfl rfl rfl rfl rfl rfl rfl rfl

theorem exec_dsAbsorb_of_passing {s : State} {e : List Nat} (hs : s.Ready)
    (he : Canonical s.params.P e) (c : ClassCode) :
    exec (.dsAbsorb c e) s = .next (respond [] (dsAbsorb c e s)) := by
  obtain ⟨hfault, hlive⟩ := hs
  refine congrArg _ (command_of_passing _ hfault ?_)
  rw [List.forall_mem_cons, List.forall_mem_singleton, notLive_passes_iff, badElems_passes_iff]
  exact ⟨hlive, he⟩

theorem exec_absorbDomain_of_passing {s : State} (hs : s.Ready) (ctx : List Byte) :
    exec (.absorbDomain ctx) s =
      .next (respond [] (s.setTweak (contextTweak s.params ctx s.tweak))) := by
  obtain ⟨hfault, hlive⟩ := hs
  refine congrArg _ (command_of_passing _ hfault ?_)
  rw [List.forall_mem_singleton, notLive_passes_iff]
  exact hlive

/-! ### A digest under an idle tweak (R162) -/

/-- A batch that no tweak acts on is absorbed in the same way whichever tweak is pending. -/
theorem dsAbsorb_setTweak_of_idle (c : ClassCode) {e : List Nat} {s : State} {u : Tweak}
    (hcur : u.cur = s.tweak.cur) (hs : TweakIdle s.params s.tweak e.length)
    (hu : TweakIdle s.params u e.length) :
    dsAbsorb c e (s.setTweak u) =
      (dsAbsorb c e s).setTweak { u with cur := (u.cur + e.length) % s.params.rate } := by
  have hsponge : (dsAbsorb c e (s.setTweak u)).sponge = (dsAbsorb c e s).sponge :=
    congrArg (spAbsorb s.params s.sponge) (dsTransform_fst_eq_of_idle c hcur hu hs)
  exact State.ext hsponge rfl (dsTransform_snd_of_idle c hu) rfl rfl rfl rfl rfl rfl rfl rfl rfl rfl

/-- The digest of 45_hasher.md R236 puts the elements of its flush through the transform on copies. -/
theorem digestElem_setTweak_of_idle {s : State} {u : Tweak} (hcur : u.cur = s.tweak.cur)
    (hs : TweakIdle s.params s.tweak (flushList s.params s.cfg s.buf).length)
    (hu : TweakIdle s.params u (flushList s.params s.cfg s.buf).length) :
    digestElem (s.setTweak u) = digestElem s :=
  congrArg (fun v => lane (spSqueeze s.params (spAbsorb s.params s.sponge v) 1).1 0)
    (dsTransform_fst_eq_of_idle .primitive hcur hu hs)

/-- Batches one after the other, each of its class. -/
def absorbBatches (batches : List (ClassCode × List Nat)) (s : State) : State :=
  batches.foldl (fun u b => dsAbsorb b.1 b.2 u) s

theorem absorbBatches_cons (b : ClassCode × List Nat) (batches : List (ClassCode × List Nat))
    (s : State) : absorbBatches (b :: batches) s = absorbBatches batches (dsAbsorb b.1 b.2 s) := rfl

/-- Batches and a digest whose elements no tweak acts on. -/
theorem digestElem_absorbBatches_setTweak_of_idle (batches : List (ClassCode × List Nat)) {s : State}
    {u : Tweak} {n : Nat} (hflush : (flushList s.params s.cfg s.buf).length ≤ n)
    (hcur : u.cur = s.tweak.cur)
    (hs : TweakIdle s.params s.tweak ((batches.map (fun b => b.2.length)).sum + n))
    (hu : TweakIdle s.params u ((batches.map (fun b => b.2.length)).sum + n)) :
    digestElem (absorbBatches batches (s.setTweak u)) = digestElem (absorbBatches batches s) := by
  induction batches generalizing s u with
  | nil =>
    rw [List.map_nil, List.sum_nil, Nat.zero_add] at hs hu
    exact digestElem_setTweak_of_idle hcur (hs.mono hflush) (hu.mono hflush)
  | cons b batches ih =>
    rw [List.map_cons, List.sum_cons, Nat.add_assoc] at hs hu
    have hsnext := dsTransform_snd_of_idle b.1 (hs.mono (Nat.le_add_right _ _))
    rw [absorbBatches_cons, absorbBatches_cons, dsAbsorb_setTweak_of_idle b.1 hcur
      (hs.mono (Nat.le_add_right _ _)) (hu.mono (Nat.le_add_right _ _))]
    refine ih hflush ?_ ?_ hu.advance
    · rw [dsAbsorb_tweak, dsTransform_cur, hcur]
    · rw [dsAbsorb_params, dsAbsorb_tweak, hsnext]
      exact hs.advance

/-- A response is on `DOUT` alone, which no batch and no digest reads. -/
theorem digestElem_absorbBatches_respond (batches : List (ClassCode × List Nat)) (data : List Byte)
    (s : State) :
    digestElem (absorbBatches batches (respond data s)) = digestElem (absorbBatches batches s) := by
  induction batches generalizing s with
  | nil => rfl
  | cons b batches ih => exact ih (dsAbsorb b.1 b.2 s)

end Sys2Proof.Machine

open Sys2Proof Sys2Proof.Machine

/-- Settles O40: a tweak that is not pending is idle on every batch. -/
theorem classConstantsWithoutTweak : Obligations.ClassConstantsWithoutTweak := by
  intro C c t e habsent
  have hidle : TweakIdle C t e.length := tweakIdle_of_absent habsent _
  exact ⟨dsTransform_length c t e, fun p hp => dsTransform_getD_of_idle c hidle hp,
    dsTransform_snd_of_idle c hidle⟩

/-- Settles O41: each element's value follows from the record that the elements before it leave, so both
the values and the record rest on the record after a batch. -/
theorem pendingTweakAffectsOneBlock : Obligations.PendingTweakAffectsOneBlock := by
  refine ⟨fun C c t e _ hcur hpres halign hrem => ⟨dsTransform_length c t e, fun p hp => ?_, ?_⟩,
    fun C c t e hpres halign hrem => ⟨dsTransform_length c t e, fun p hp => ?_,
      dsTransform_snd_of_started c e hpres halign hrem⟩⟩
  · have htake : (e.take p).length = p := List.length_take_of_le hp.le
    have hshare := tweakShare_of_waiting c (e.take p) hcur hpres halign hrem
    rw [htake] at hshare
    rw [dsTransform_getD c t hp, hshare]
    rfl
  · split
    · next hbefore => exact dsTransform_snd_of_idle c (tweakIdle_of_waiting halign hcur hbefore)
    · next hafter =>
      exact dsTransform_snd_of_waiting c hcur hpres halign hrem (Nat.lt_of_not_le hafter)
  · have htake : (e.take p).length = p := List.length_take_of_le hp.le
    rw [dsTransform_getD c t hp, tweakShare_of_started c _ _ hpres halign hrem, htake]
    rfl

/-- Settles O43: the transform goes on from the record of the first part, and the sponge by its own
splitting law. -/
theorem dsAbsorbSplittingLaw : Obligations.DsAbsorbSplittingLaw :=
  fun c a b _ hrate hidx => dsAbsorb_append c a b hrate hidx

/-- Settles O45: the context waits, so it is as idle as no tweak on every element counted, those of the
batches and those of the flush. -/
theorem contextWithNothingAfterIt : Obligations.ContextWithNothingAfterIt := by
  intro ctx batches s t hs _ hcur habsent hroom hexec absorbed
  rw [exec_absorbDomain_of_passing hs] at hexec
  cases hexec
  have hwaits := tweakIdle_of_waiting (t := contextTweak s.params ctx s.tweak) rfl hcur hroom
  calc digestElem (absorbed (respond [] (s.setTweak (contextTweak s.params ctx s.tweak))))
      = digestElem (absorbed (s.setTweak (contextTweak s.params ctx s.tweak))) :=
        digestElem_absorbBatches_respond batches [] _
    _ = digestElem (absorbed s) :=
        digestElem_absorbBatches_setTweak_of_idle batches (Nat.le_refl _) rfl
          (tweakIdle_of_absent habsent _) hwaits

/-- Settles O42: the fields are those of the transform and of the sponge; the counter's sum of words is
the sum of numbers modulo `2^64`. -/
theorem dsAbsorbCompletes : Obligations.DsAbsorbCompletes := by
  intro c e s
  refine ⟨?_, fun hs he => exec_dsAbsorb_of_passing hs he c⟩
  have hcount : (dsAbsorb c e s).count = BitVec.ofNat 64 (s.count.toNat + e.length) := by
    rw [dsAbsorb_count, BitVec.ofNat_add, BitVec.ofNat_toNat, BitVec.setWidth_eq]
  rw [← hcount]
  rfl

/-- Settles O44: the action is the four registers and the response; the values are reduced. -/
theorem contextIsInstalled : Obligations.ContextIsInstalled :=
  fun ctx _ hs => ⟨exec_absorbDomain_of_passing hs ctx, fun hP => domainDerive_lt hP ctx⟩
end

section
/-! The field adapter (43_field_adapter.md): each of its four commands is one batch of `ds_absorb`, of
the class of its own value. -/

namespace Sys2Proof.Machine

/-! ### The checks of a live command -/

theorem badScalarWidth_passes_iff {s : State} :
    (badScalarWidth s).1 = false ↔ s.params.scalarBits ≤ fieldBits s.params :=
  decide_eq_false_iff_not.trans Nat.not_lt

/-- A ready block passes the check for an instance; the operand checks are left. -/
theorem command_of_ready (act : State → State) {checks : List (Bool × Status)} {s : State}
    (hs : s.Ready) (hchecks : ∀ c ∈ checks, c.1 = false) :
    command (notLive s :: checks) act s = act s := by
  obtain ⟨hfault, hlive⟩ := hs
  exact command_of_passing act hfault
    (List.forall_mem_cons.mpr ⟨notLive_passes_iff.mpr hlive, hchecks⟩)

/-! ### The four commands -/

section FieldAdapter

variable {s : State}

theorem exec_updBase_of_passing {e : List Nat} (hs : s.Ready) (hlen : e.length = 1)
    (he : Canonical s.params.P e) :
    exec (.updBase e) s = .next (respond [] (dsAbsorb .base e s)) := by
  refine congrArg _ (command_of_ready _ hs ?_)
  rw [List.forall_mem_cons, List.forall_mem_singleton, badLen_passes_iff, badElems_passes_iff]
  exact ⟨hlen, he⟩

theorem exec_updScalar_of_passing {b : List Byte} (hs : s.Ready)
    (hwidth : s.params.scalarBits ≤ fieldBits s.params) (hlen : b.length = scalarBytes s.params) :
    exec (.updScalar b) s =
      .next (respond [] (dsAbsorb .scalar [leNat b % s.params.P] s)) := by
  refine congrArg _ (command_of_ready _ hs ?_)
  rw [List.forall_mem_cons, List.forall_mem_singleton, badScalarWidth_passes_iff, badLen_passes_iff]
  exact ⟨hwidth, hlen⟩

theorem exec_updPoint_of_passing {e : List Nat} (hs : s.Ready) (hlen : e.length = 2)
    (he : Canonical s.params.P e) :
    exec (.updPoint e) s = .next (respond [] (dsAbsorb .pointFinite e s)) := by
  refine congrArg _ (command_of_ready _ hs ?_)
  rw [List.forall_mem_cons, List.forall_mem_singleton, badLen_passes_iff, badElems_passes_iff]
  exact ⟨hlen, he⟩

theorem exec_updPointInf_of_passing {len : Len} (hs : s.Ready) (hlen : len.toNat = 0) :
    exec (.updPointInf len) s = .next (respond [] (dsAbsorb .pointInf [0] s)) := by
  refine congrArg _ (command_of_ready _ hs ?_)
  rw [List.forall_mem_singleton, badLen_passes_iff]
  exact hlen

end FieldAdapter

end Sys2Proof.Machine

open Sys2Proof Sys2Proof.Machine

/-- Settles O46: command by command, each with the operands its own checks ask for; a batch does not
write `BUF`. -/
theorem fieldAdapterCommandsComplete : Obligations.FieldAdapterCommandsComplete := by
  intro s hs
  refine ⟨fun v hv => exec_updBase_of_passing hs rfl (List.forall_mem_singleton.mpr hv),
    fun _ => exec_updScalar_of_passing hs, fun x y hx hy => ?point,
    exec_updPointInf_of_passing hs rfl, fun c e => dsAbsorb_buf c e s⟩
  case point =>
    exact exec_updPoint_of_passing hs rfl
      (List.forall_mem_cons.mpr ⟨hx, List.forall_mem_singleton.mpr hy⟩)
end

