-- ==== Sys2Proof/Proofs/PackingBuffer.lean ====
section
/-! The packing buffer (44_packing_buffer.md): a drain as one whole chunk after another, the padded
remainder of a flush, extraction of a byte string in two parts, and the commands that push, extract and
flush. -/

namespace Sys2Proof.Machine

/-! ### One whole chunk at a time (R196, R201) -/

/-- Any fuel that covers the bytes gives the same drain, for every pass but the last takes a byte or
more. -/
theorem drainLoop_eq_of_fuel (P : Nat) {n f g : Nat} {b : List Byte} (hn : 1 ≤ n)
    (hf : b.length ≤ f) (hg : b.length ≤ g) : drainLoop P n f b = drainLoop P n g b := by
  induction f generalizing g b with
  | zero =>
    have hshort : b.length < n := by omega
    rw [drainLoop_short P n _ hshort, drainLoop_short P n _ hshort]
  | succ f ih =>
    rcases Nat.lt_or_ge b.length n with hshort | hchunk
    · rw [drainLoop_short P n _ hshort, drainLoop_short P n _ hshort]
    · obtain ⟨g, rfl⟩ := Nat.exists_eq_add_one.mpr (show 0 < g by omega)
      have hrest : drainLoop P n f (b.drop n) = drainLoop P n g (b.drop n) := by
        apply ih <;> rw [List.length_drop] <;> omega
      rw [drainLoop_chunk P n f hchunk, drainLoop_chunk P n g hchunk, hrest]

section Drain

variable {C : Params} {c : Cfg} {a b : List Byte}

theorem drain_of_short (hshort : b.length < chunkSize c) : drain C c b = ([], b) :=
  drainLoop_short _ _ _ hshort

theorem drain_chunk_append (hc : 1 ≤ chunkSize c) (ha : a.length = chunkSize c) :
    drain C c (a ++ b) = (chunkElem C.P a :: (drain C c b).1, (drain C c b).2) := by
  have hlen : (a ++ b).length = chunkSize c + b.length := by rw [List.length_append, ha]
  have hchunk := drainLoop_chunk C.P (chunkSize c) (a ++ b).length (b := a ++ b) (by omega)
  have hfuel : drain C c (a ++ b) = drainLoop C.P (chunkSize c) ((a ++ b).length + 1) (a ++ b) :=
    drainLoop_eq_of_fuel C.P hc (Nat.le_refl _) (Nat.le_succ _)
  have hrest : drainLoop C.P (chunkSize c) (a ++ b).length b = drain C c b :=
    drainLoop_eq_of_fuel C.P hc (by omega) (Nat.le_refl _)
  rw [hfuel, hchunk, List.take_left' ha, List.drop_left' ha, hrest]

/-- Induction along a drain: a buffer holds less than a chunk, or is a chunk and then a buffer. -/
theorem chunk_induction {n : Nat} {p : List Byte → Prop} (hn : 1 ≤ n)
    (short : ∀ b, b.length < n → p b) (chunk : ∀ a b, a.length = n → p b → p (a ++ b))
    (b : List Byte) : p b := by
  induction hlen : b.length using Nat.strong_induction_on generalizing b with
  | _ len ih =>
    rcases Nat.lt_or_ge b.length n with hshort | hchunk
    · exact short b hshort
    · have hrest : (b.drop n).length < len := by rw [List.length_drop]; omega
      rw [← List.take_append_drop n b]
      exact chunk _ _ (List.length_take_of_le hchunk) (ih _ hrest _ rfl)

/-- The elements of a drain: element `k` is the value of the chunk at byte `k` times the chunk size. -/
theorem drain_fst (hc : 1 ≤ chunkSize c) :
    (drain C c b).1 = (List.range (b.length / chunkSize c)).map
      (fun k => chunkElem C.P ((b.drop (k * chunkSize c)).take (chunkSize c))) := by
  induction b using chunk_induction hc with
  | short b hshort =>
    rw [drain_of_short hshort, Nat.div_eq_of_lt hshort]
    rfl
  | chunk a b ha ih =>
    have hcount : (a ++ b).length / chunkSize c = b.length / chunkSize c + 1 := by
      rw [List.length_append, ha, Nat.add_div_left _ hc]
    have hdrop (k : Nat) :
        (a ++ b).drop ((k + 1) * chunkSize c) = b.drop (k * chunkSize c) := by
      rw [Nat.succ_mul, Nat.add_comm, ← ha, List.drop_length_add_append]
    rw [drain_chunk_append hc ha, hcount, List.range_succ_eq_map, List.map_cons, List.map_map,
      Nat.zero_mul, List.drop_zero, List.take_left' ha, ih]
    simp only [Function.comp_def, Nat.succ_eq_add_one, hdrop]

/-- The bytes of a drain that are left are those after the whole chunks. -/
theorem drain_snd (hc : 1 ≤ chunkSize c) :
    (drain C c b).2 = b.drop (b.length / chunkSize c * chunkSize c) := by
  induction b using chunk_induction hc with
  | short b hshort =>
    rw [drain_of_short hshort, Nat.div_eq_of_lt hshort, Nat.zero_mul, List.drop_zero]
  | chunk a b ha ih =>
    rw [drain_chunk_append hc ha, ih, List.length_append, ha, Nat.add_div_left _ hc, Nat.succ_mul,
      Nat.add_comm (_ * _), ← ha, List.drop_length_add_append]

theorem drain_snd_length_lt (hc : 1 ≤ chunkSize c) :
    (drain C c b).2.length < chunkSize c := by
  rw [drain_snd hc, List.length_drop, ← Nat.mod_eq_sub_div_mul]
  exact Nat.mod_lt _ hc

/-- A drain of a byte string in two parts: the second goes on from the bytes that the first leaves. -/
theorem drain_append (hc : 1 ≤ chunkSize c) (x y : List Byte) :
    drain C c (x ++ y) =
      ((drain C c x).1 ++ (drain C c ((drain C c x).2 ++ y)).1,
        (drain C c ((drain C c x).2 ++ y)).2) := by
  induction x using chunk_induction hc with
  | short x hshort => rw [drain_of_short hshort, List.nil_append]
  | chunk a x ha ih =>
    rw [List.append_assoc, drain_chunk_append hc ha, drain_chunk_append hc ha, ih, List.cons_append]

/-- With chunks of one byte every byte is an element and none is left. -/
theorem drain_of_circuitFriendly (C : Params) {c : Cfg} (hpk : c.pk = .circuitFriendly)
    (b : List Byte) : drain C c b = (b.map (fun x => x.toNat % C.P), []) := by
  have hc : chunkSize c = 1 := by rw [chunkSize, hpk]
  induction b with
  | nil => exact drain_of_short hc.ge
  | cons x b ih =>
    have hone : drain C c ([x] ++ b) = _ := drain_chunk_append hc.ge hc.symm
    rw [List.singleton_append, ih] at hone
    exact hone

/-! ### The padded remainder (R202 to R204) -/

theorem flushList_of_no_remainder (h : (drain C c b).2 = []) :
    flushList C c b = (drain C c b).1 := by
  simp [flushList, h]

theorem flushList_of_remainder (h : (drain C c b).2 ≠ []) :
    flushList C c b = (drain C c b).1 ++ [chunkElem C.P (paddedChunk c (drain C c b).2)] := by
  obtain ⟨x, rest, hrest⟩ := List.exists_cons_of_ne_nil h
  simp [flushList, hrest]

theorem leNat_paddedChunk_of_zero (hpad : c.pad = .zero) : leNat (paddedChunk c b) = leNat b := by
  rw [paddedChunk, hpad]
  exact leNat_zero_padded b _

theorem leNat_paddedChunk_of_lengthPrefix (hpad : c.pad = .lengthPrefix) (hlen : b.length ≤ 255) :
    leNat (paddedChunk c b) = b.length + 256 * leNat b := by
  have hcount : (countByte b.length).toNat = b.length := by
    rw [countByte, if_pos hlen, BitVec.toNat_ofNat]
    omega
  rw [paddedChunk, hpad]
  dsimp only
  rw [leNat_cons, leNat_zero_padded, hcount]

end Drain

/-! ### Extraction after a push (R188, R201) -/

section Commands

variable {s : State}

theorem extract_bufPush (b : List Byte) (s : State) :
    extract (bufPush b s) =
      dsAbsorb .primitive (drain s.params s.cfg (s.buf ++ b)).1
        (s.setBuf (drain s.params s.cfg (s.buf ++ b)).2) := rfl

/-- Bytes pushed and extracted in one part or in two. The batches agree as they stand, for a batch
neither reads nor writes `BUF`. -/
theorem extract_bufPush_append (x y : List Byte) (hrate : 1 ≤ s.params.rate)
    (hidx : s.sponge.idx ≤ s.params.rate) (hc : 1 ≤ chunkSize s.cfg) :
    extract (bufPush (x ++ y) s) = extract (bufPush y (extract (bufPush x s))) := by
  rw [extract_bufPush (x ++ y), ← List.append_assoc, drain_append hc,
    dsAbsorb_append _ _ _ (by exact hrate) (by exact hidx)]
  rfl

/-! ### The checks of a push (60_exceptions.md R269, R272) -/

theorem bufFull_passes_iff {n : Nat} : (bufFull s n).1 = false ↔ Fits s n := by
  refine ⟨fits_of_not_bufFull, fun hfits => ?_⟩
  cases hcap : s.params.bufCap with
  | none => simp [bufFull, exceedsCap, hcap]
  | some cap => simpa [bufFull, exceedsCap, hcap] using hfits cap hcap

theorem badBool_passes_iff {b : List Byte} : (badBool b).1 = false ↔ ∀ x ∈ b, x ≤ 1 := by
  simp [badBool]

theorem forall_mem_le_of_length_one {b : List Byte} {m : Byte} (hlen : b.length = 1)
    (hle : b.getD 0 0 ≤ m) : ∀ x ∈ b, x ≤ m := by
  obtain ⟨v, rfl⟩ := List.length_eq_one_iff.mp hlen
  exact List.forall_mem_singleton.mpr hle

/-! ### Commands on the buffer (R189 to R191, R209, R210) -/

theorem exec_pushTag_of_passing {len : Len} (hs : s.Ready) (k : Kind) (hlen : len.toNat = 0)
    (hfits : Fits s 1) :
    exec (.pushTag k len) s = .next (respond [] (bufPush [tagAt s.params k] s)) := by
  refine congrArg _ (command_of_ready _ hs ?_)
  rw [List.forall_mem_cons, List.forall_mem_singleton, badLen_passes_iff, bufFull_passes_iff]
  exact ⟨hlen, hfits⟩

theorem exec_pushBytes_of_passing {b : List Byte} (hs : s.Ready) (hfits : Fits s b.length) :
    exec (.pushBytes b) s = .next (respond [] (bufPush b s)) := by
  refine congrArg _ (command_of_ready _ hs ?_)
  rw [List.forall_mem_singleton, bufFull_passes_iff]
  exact hfits

theorem exec_pushVarint_of_passing {b : List Byte} (hs : s.Ready) (hlen : b.length = 8)
    (hfits : Fits s (leb128 (leNat b)).length) :
    exec (.pushVarint b) s = .next (respond [] (bufPush (leb128 (leNat b)) s)) := by
  refine congrArg _ (command_of_ready _ hs ?_)
  rw [List.forall_mem_cons, List.forall_mem_singleton, badLen_passes_iff, bufFull_passes_iff]
  exact ⟨hlen, hfits⟩

theorem exec_pbExtract_of_passing {len : Len} (hs : s.Ready) (hlen : len.toNat = 0) :
    exec (.pbExtract len) s = .next (respond [] (extract s)) :=
  congrArg _ (command_of_ready _ hs (List.forall_mem_singleton.mpr (badLen_passes_iff.mpr hlen)))

theorem exec_pbFlush_of_passing {len : Len} (hs : s.Ready) (hlen : len.toNat = 0) :
    exec (.pbFlush len) s = .next (respond [] (flush s)) :=
  congrArg _ (command_of_ready _ hs (List.forall_mem_singleton.mpr (badLen_passes_iff.mpr hlen)))

/-! ### Updates of primitives (R195, R211 to R223) -/

/-- An update whose operand checks pass and whose serialised form fits. -/
theorem updPrimitive_of_passing (k : Kind) {b : List Byte} {checks : List (Bool × Status)}
    (hs : s.Ready) (hchecks : ∀ c ∈ checks, c.1 = false)
    (hfits : Fits s (serialize s.params k b).length) :
    updPrimitive k b checks s =
      respond [] (extract (bufPush (serialize s.params k b) s)) := by
  refine command_of_ready _ hs (List.forall_mem_append.mpr ⟨hchecks, ?_⟩)
  exact List.forall_mem_singleton.mpr (bufFull_passes_iff.mpr hfits)

/-- An update of a kind with a fixed width, whose one operand check is that of `LEN`. -/
theorem updPrimitive_of_width (k : Kind) {b : List Byte} {n : Nat} (hs : s.Ready)
    (hlen : b.length = n) (hfits : Fits s (serialize s.params k b).length) :
    updPrimitive k b [badLen b.length n] s =
      respond [] (extract (bufPush (serialize s.params k b) s)) :=
  updPrimitive_of_passing k hs (List.forall_mem_singleton.mpr (badLen_passes_iff.mpr hlen)) hfits

theorem exec_updBool_of_passing {b : List Byte} (hs : s.Ready) (hlen : b.length = 1)
    (hval : b.getD 0 0 ≤ 1) (hfits : Fits s (serialize s.params .bool b).length) :
    exec (.updBool b) s =
      .next (respond [] (extract (bufPush (serialize s.params .bool b) s))) := by
  refine congrArg _ (updPrimitive_of_passing .bool hs ?_ hfits)
  rw [List.forall_mem_cons, List.forall_mem_singleton, badLen_passes_iff, badBool_passes_iff]
  exact ⟨hlen, forall_mem_le_of_length_one hlen hval⟩

end Commands

end Sys2Proof.Machine

open Sys2Proof Sys2Proof.Machine

/-- Settles O48: the elements and the bytes left, each by induction along the chunks. -/
theorem drainTakesWholeChunks : Obligations.DrainTakesWholeChunks :=
  fun _ _ _ hc => ⟨drain_fst hc, drain_snd hc, drain_snd_length_lt hc⟩

/-- Settles O49: what is left after the drain is one padded chunk, of which each policy fixes the value;
chunks of one byte leave nothing. -/
theorem flushPadsTheRemainder : Obligations.FlushPadsTheRemainder := by
  intro C c b _
  refine ⟨flushList_of_no_remainder, fun hrem hpad => ?zero, fun hrem hpad hlen => ?lengthPrefix,
    fun hpk => ?circuitFriendly⟩
  case zero =>
    rw [flushList_of_remainder hrem, chunkElem, leNat_paddedChunk_of_zero hpad]
  case lengthPrefix =>
    rw [flushList_of_remainder hrem, chunkElem, leNat_paddedChunk_of_lengthPrefix hpad hlen]
  case circuitFriendly =>
    have hdrain := drain_of_circuitFriendly C hpk b
    rw [flushList_of_no_remainder (congrArg Prod.snd hdrain), hdrain]

/-- Settles O50: the drain goes on from the bytes the first extraction leaves, and the two batches of
`ds_absorb` are the one of both. -/
theorem extractionIgnoresBoundaries : Obligations.ExtractionIgnoresBoundaries :=
  fun x y _ hrate hidx hc => (extract_bufPush_append x y hrate hidx hc).symm

/-- Settles O51: once the checks of a push have passed, `bufPush` and the response are all it does. -/
theorem pushCommandsComplete : Obligations.PushCommandsComplete :=
  fun _ hs => ⟨fun k => exec_pushTag_of_passing hs k rfl, fun _ => exec_pushBytes_of_passing hs,
    fun _ => exec_pushVarint_of_passing hs⟩

/-- Settles O52: both commands act on a ready block, and their actions are one batch each. -/
theorem extractAndFlushComplete : Obligations.ExtractAndFlushComplete :=
  fun _ hs => ⟨exec_pbExtract_of_passing hs rfl, exec_pbFlush_of_passing hs rfl⟩

/-- Settles O53: `UPD_BOOL` has a check of its value, ten kinds have that of their width alone, and the
two kinds of any length have none. -/
theorem primitiveUpdatesComplete : Obligations.PrimitiveUpdatesComplete := by
  intro s b hs done
  have fixedWidth (k : Kind) {n : Nat} (hlen : b.length = n) :
      done (serialize s.params k b) (.next (updPrimitive k b [badLen b.length n] s)) :=
    fun hfits => congrArg _ (updPrimitive_of_width k hs hlen hfits)
  have anyLength (k : Kind) :
      done (serialize s.params k b) (.next (updPrimitive k b [] s)) :=
    fun hfits => congrArg _ (updPrimitive_of_passing k hs (List.forall_mem_nil _) hfits)
  exact ⟨exec_updBool_of_passing hs, fixedWidth .u8, fixedWidth .u16, fixedWidth .u32,
    fixedWidth .u64, fixedWidth .u128, fixedWidth .i8, fixedWidth .i16, fixedWidth .i32,
    fixedWidth .i64, fixedWidth .i128, anyLength .str, anyLength .bytes⟩
end

section
/-! The statements of 60_exceptions.md: every command but a correct `STATUS` is one run of `command`, and
the checks it lists fail first where the table of R265 does. The statements about errors follow from what
a command does when `FAULT = 1`, when a check of the table fails and when all of them pass. -/

namespace Sys2Proof.Machine

/-! ### The first failing check of a list (60_exceptions.md R265) -/

/-- The code of the first check of a list that fails. -/
def firstFailing (checks : List (Bool × Status)) : Option Status :=
  (checks.find? (fun c => c.1)).map Prod.snd

@[simp] theorem firstFailing_nil : firstFailing [] = none := rfl

@[simp] theorem firstFailing_cons (c : Bool × Status) (checks : List (Bool × Status)) :
    firstFailing (c :: checks) = if c.1 then some c.2 else firstFailing checks := by
  cases h : c.1 <;> simp [firstFailing, h]

theorem command_of_firstFailing (act : State → State) {checks : List (Bool × Status)} {s : State}
    {e : Status} (hfault : s.fault = false) (h : firstFailing checks = some e) :
    command checks act s = raise e s := by
  obtain ⟨c, hc, rfl⟩ := Option.map_eq_some_iff.mp h
  exact command_of_failing act hfault hc

theorem command_of_firstFailing_none (act : State → State) {checks : List (Bool × Status)}
    {s : State} (hfault : s.fault = false) (h : firstFailing checks = none) :
    command checks act s = act s := by
  refine command_of_passing act hfault fun c hc => ?_
  simpa using List.find?_eq_none.mp (Option.map_eq_none_iff.mp h) c hc

section Exceptions

variable {s : State}

/-! ### The checks of the commands and the entries of the table -/

@[simp] theorem notLive_fails : (notLive s).1 = !s.live := rfl

@[simp] theorem badLen_fails (len required : Nat) : (badLen len required).1 = (len != required) := rfl

@[simp] theorem toNat_bne_zero (len : Len) : (len.toNat != 0) = (len != 0) := by
  rw [Bool.eq_iff_iff]
  simp [← BitVec.toNat_inj]

@[simp] theorem badWidth_fails : (badWidth s).1 = (s.params.width != 4) := rfl

@[simp] theorem badScalarWidth_fails :
    (badScalarWidth s).1 = decide (fieldBits s.params < s.params.scalarBits) := rfl

@[simp] theorem badOverride_fails (ovr : Bool) (len : Len) :
    (badOverride ovr len).1 =
      if ovr then decide (len.toNat = 0) || decide (256 < len.toNat) else len != 0 := by
  simp [badOverride]

@[simp] theorem badElems_fails (e : List Nat) :
    (badElems s e).1 = e.any (fun v => decide (s.params.P ≤ v)) := by
  simp [badElems, List.not_all_eq_any_not, ← decide_not]

@[simp] theorem badBool_fails (b : List Byte) :
    (badBool b).1 = b.any (fun v => decide (1 < v.toNat)) := by
  simp [badBool, List.not_all_eq_any_not, ← decide_not, BitVec.le_def]

/-- Check 9 of the table is the check of a push of the bytes that the command pushes. -/
theorem capCheckFails_eq (i : Instr) :
    capCheckFails s i = (pushedBytes s.params i).any fun b => (bufFull s b.length).1 := by
  unfold capCheckFails bufFull exceedsCap
  cases pushedBytes s.params i <;> cases s.params.bufCap <;> rfl

/-! ### Commands that complete (60_exceptions.md R274; 30_encoding.md R74) -/

/-- A command answered `OK`: one response, `FAULT` and `ERR` as before. -/
def AnswersOk (s t : State) : Prop :=
  ∃ data, t.dout = s.dout ++ 0x00 :: data ∧ t.fault = s.fault ∧ t.err = s.err

/-- A response after an action that leaves `DOUT`, `FAULT` and `ERR` alone. -/
theorem answersOk_respond {t : State} (data : List Byte) (hdout : t.dout = s.dout)
    (hfault : t.fault = s.fault) (herr : t.err = s.err) : AnswersOk s (respond data t) :=
  ⟨data, congrArg (· ++ 0x00 :: data) hdout, hfault, herr⟩

theorem exec_status_zero (s : State) :
    exec (.status 0) s = .next (respond [statusFlags s, s.err] s) := rfl

theorem exec_status_zero_answersOk : ∃ t, exec (.status 0) s = .next t ∧ AnswersOk s t :=
  ⟨_, exec_status_zero s, answersOk_respond _ rfl rfl rfl⟩

theorem exec_status_of_ne {len : Len} (h : len ≠ 0) (s : State) :
    exec (.status len) s = .next (command [badLen len.toNat 0] id s) :=
  congrArg Host.Outcome.next (if_neg h)

/-! ### Every command against the table (60_exceptions.md R265, checks 4 to 9) -/

/-- The table as a list of checks, like those that a meaning lists. -/
theorem firstError_eq (i : Instr) (s : State) : firstError i s = firstFailing
    [(needsInstance i && !s.live, .eNotLive), (scalarCheckFails s.params i, .eScalarWidth),
      (widthCheckFails s.params i, .eWidth), (lenCheckFails s.params i, .eOperand),
      (valueCheckFails s.params i, .eOperand), (capCheckFails s i, .eBufFull)] := by
  simp [firstError]

/-- The codes that the table gives; the first of them only to a command that needs an instance. -/
theorem firstError_cases {i : Instr} {e : Status} (h : firstError i s = some e) :
    (e = .eNotLive ∧ needsInstance i = true ∧ s.live = false)
      ∨ e = .eScalarWidth ∨ e = .eWidth ∨ e = .eOperand ∨ e = .eBufFull := by
  simp only [firstError_eq, firstFailing_cons, firstFailing_nil] at h
  split_ifs at h with hlive <;> cases h
  case pos => exact .inl ⟨rfl, by simpa using hlive⟩
  all_goals simp

/-- The two codes that no check raises: that of a completed and that of a refused command. -/
theorem firstError_raisable {i : Instr} {e : Status} (h : firstError i s = some e) :
    e ≠ .ok ∧ e ≠ .eFaulted := by
  rcases firstError_cases h with ⟨rfl, -⟩ | rfl | rfl | rfl | rfl <;> decide

theorem firstError_ne_eNotLive {i : Instr} {e : Status} (hfree : needsInstance i = false)
    (h : firstError i s = some e) : e ≠ .eNotLive := by
  rcases firstError_cases h with ⟨-, hneeds, -⟩ | rfl | rfl | rfl | rfl
  · rw [hfree] at hneeds
    cases hneeds
  all_goals decide

theorem firstError_of_no_instance {i : Instr} (hneeds : needsInstance i = true)
    (hlive : s.live = false) : firstError i s = some .eNotLive :=
  if_pos (by rw [hneeds, hlive]; rfl)

theorem firstError_new_of_scalarTooWide (pk : PackMode) (pad : PadPolicy) (ovr : Bool) (len : Len)
    (h : fieldBits s.params < s.params.scalarBits) :
    firstError (.new pk pad ovr len) s = some .eScalarWidth :=
  (if_neg Bool.false_ne_true).trans (if_pos (decide_eq_true h))

theorem firstError_status_zero : firstError (.status 0) s = none := rfl

/-- The outcome of a command is a run of `command` whose checks fail first where the table does, and
whose action, when none fails, answers `OK`. -/
def FollowsTable (i : Instr) (s : State) : Prop :=
  ∃ checks act, exec i s = .next (command checks act s) ∧ firstFailing checks = firstError i s
    ∧ (firstError i s = none → AnswersOk s (act s))

/-- Command by command: the checks it lists are the entries of the table that can fail for it, in the
same order, and its action ends in a response. `STATUS` with a `LEN` other than 0 has one check, which
fails, and never comes to its action. -/
theorem exec_followsTable {i : Instr} (hi : i ≠ .status 0) : FollowsTable i s := by
  cases i with
  | status len =>
    have hlen : len ≠ 0 := fun h => hi (congrArg _ h)
    have fails : firstError (.status len) s = some .eOperand := by
      simpa [firstError_eq, needsInstance, scalarCheckFails, widthCheckFails, lenCheckFails,
        valueCheckFails] using hlen
    exact ⟨_, _, exec_status_of_ne hlen s, by rw [fails]; simpa using hlen, by simp [fails]⟩
  | new | reset | digest | finalize | count | permute | compress | spAbsorb | spSqueeze | dsAbsorb
  | absorbDomain | updBase | updScalar | updPoint | updPointInf | pushTag | pushBytes | pushVarint
  | pbExtract | pbFlush | updBool | updU8 | updU16 | updU32 | updU64 | updU128 | updI8 | updI16
  | updI32 | updI64 | updI128 | updStr | updBytes =>
    refine ⟨_, _, rfl, ?_, fun _ => answersOk_respond _ rfl rfl rfl⟩
    simp [firstError_eq, needsInstance, scalarCheckFails, widthCheckFails, lenCheckFails,
      valueCheckFails, capCheckFails_eq, pushedBytes, serialize, scalarBytes]

/-! ### What a command does (60_exceptions.md R262, R263, R265) -/

theorem exec_of_fault {i : Instr} (hi : i ≠ .status 0) (hfault : s.fault = true) :
    exec i s = .next (refuseFaulted s) := by
  obtain ⟨checks, act, hrun, -⟩ := exec_followsTable (s := s) hi
  rw [hrun, command_of_fault _ _ hfault]

theorem exec_of_firstError {i : Instr} {e : Status} (hfault : s.fault = false)
    (h : firstError i s = some e) : exec i s = .next (raise e s) := by
  have hi : i ≠ .status 0 := by
    rintro rfl
    rw [firstError_status_zero] at h
    cases h
  obtain ⟨checks, act, hrun, htable, -⟩ := exec_followsTable (s := s) hi
  rw [hrun, command_of_firstFailing act hfault (htable.trans h)]

theorem exec_of_no_firstError {i : Instr} (hfault : s.fault = false) (h : firstError i s = none) :
    ∃ t, exec i s = .next t ∧ AnswersOk s t := by
  by_cases hi : i = .status 0
  · rw [hi]
    exact exec_status_zero_answersOk
  · obtain ⟨checks, act, hrun, htable, hact⟩ := exec_followsTable (s := s) hi
    rw [command_of_firstFailing_none act hfault (htable.trans h)] at hrun
    exact ⟨_, hrun, hact h⟩

/-! ### While `FAULT = 1` (60_exceptions.md R263) -/

/-- The flags byte `LIVE + 2` of R241. -/
theorem statusFlags_of_fault (hfault : s.fault = true) :
    statusFlags s = if s.live then 0x03 else 0x02 := by
  cases hlive : s.live <;> simp [statusFlags, hfault, hlive]

/-- A command leaves `FAULT = 1` and `ERR` as they are, answered or not. -/
theorem exec_keeps_fault (i : Instr) (hfault : s.fault = true) :
    ∃ t, exec i s = .next t ∧ t.fault = true ∧ t.err = s.err := by
  by_cases hi : i = .status 0
  · rw [hi]
    exact ⟨_, exec_status_zero s, hfault, rfl⟩
  · exact ⟨_, exec_of_fault hi hfault, hfault, rfl⟩

end Exceptions

end Sys2Proof.Machine

open Sys2Proof Sys2Proof.Machine

/-- Settles O14: every command but a correct `STATUS` is refused; the flags byte of `STATUS` has bit 1
set. -/
theorem faultIsSticky : Obligations.FaultIsSticky := by
  intro i s hfault
  refine ⟨fun hi => exec_of_fault hi hfault, ?_⟩
  rw [exec_status_zero, statusFlags_of_fault hfault]
  rfl

/-- Settles O13: the check at reset exit faults the block, and from there the fault is sticky. -/
theorem malformedParamsFaultTheBlock : Obligations.MalformedParamsFaultTheBlock := by
  intro C hmal
  have hfault : (State.resetWith C).fault = true := by simp [State.resetWith, hmal]
  have herr : (State.resetWith C).err = 0x04 := by simp [State.resetWith, hmal, statusCode]
  obtain ⟨-, hstatus⟩ := faultIsSticky (.status 0) (State.resetWith C) hfault
  refine ⟨hfault, herr, hstatus.trans ?_, fun i hi => exec_of_fault hi hfault⟩
  exact congrArg (fun e => Host.Outcome.next { State.resetWith C with dout := [0x00, 0x02, e] }) herr

/-- Settles O16: the check for an instance is the first of the table; a command that does not need one
completes or raises one of the other codes. -/
theorem commandsThatNeedAnInstance : Obligations.CommandsThatNeedAnInstance := by
  intro i s hfault hlive
  refine ⟨fun hneeds => ?needs, fun hfree => ?free⟩
  case needs =>
    rw [exec_of_firstError hfault (firstError_of_no_instance hneeds hlive),
      raise_of_no_fault _ hfault]
    rfl
  case free =>
    cases h : firstError i s with
    | none =>
      obtain ⟨t, hrun, data, hdout, -⟩ := exec_of_no_firstError hfault h
      exact ⟨t, .ok, data, hrun, hdout, by decide⟩
    | some e =>
      exact ⟨_, e, [], exec_of_firstError hfault h, rfl, firstError_ne_eNotLive hfree h⟩

/-- Settles O17: a faulted block refuses all but a correct `STATUS`; without a fault the table says
whether a code is raised, and if none is the command completes. -/
theorem errorsArePrecise : Obligations.ErrorsArePrecise := by
  intro i s
  rcases Bool.eq_false_or_eq_true s.fault with hfault | hfault
  · by_cases hi : i = .status 0
    · obtain ⟨t, hrun, hok⟩ := exec_status_zero_answersOk (s := s)
      exact ⟨t, hi ▸ hrun, .inl hok⟩
    · exact ⟨_, exec_of_fault hi hfault, .inr (.inr ⟨hfault, rfl⟩)⟩
  · cases h : firstError i s with
    | none =>
      obtain ⟨t, hrun, hok⟩ := exec_of_no_firstError hfault h
      exact ⟨t, hrun, .inl hok⟩
    | some e =>
      obtain ⟨hok, hfaulted⟩ := firstError_raisable h
      exact ⟨_, exec_of_firstError hfault h,
        .inr (.inl ⟨e, hok, hfaulted, hfault, raise_of_no_fault e hfault⟩)⟩

/-- Settles O18: a command raises the first code of the table, and completes when the table has none. -/
theorem firstFailingCheckDecides : Obligations.FirstFailingCheckDecides := by
  intro i s hfault
  refine ⟨fun e h => ?fails, fun h => ?passes⟩
  case fails => rw [exec_of_firstError hfault h, raise_of_no_fault e hfault]
  case passes =>
    obtain ⟨t, hrun, data, hdout, hkept, -⟩ := exec_of_no_firstError hfault h
    exact ⟨t, data, hrun, hdout, hkept.trans hfault⟩

/-- Settles O19: a step without `RST` is a command or the answer to a bad header, which leave a fault as it
is, or waits. Hardware reset checks the parameter set again, and the scalar width is the first check of
the table that can fail for `NEW`. -/
theorem onlyHardwareResetClearsFault : Obligations.OnlyHardwareResetClearsFault := by
  refine ⟨fun s t hrst hfault hstep => ?sticky, fun s hrst => ?reset⟩
  case sticky =>
    rcases step_cases hstep with ⟨hreset, -⟩ | ⟨-, i, -, hrun⟩ | ⟨-, e, -, hbad⟩
    · rw [hrst] at hreset
      cases hreset
    · obtain ⟨u, hu, hkept⟩ := exec_keeps_fault (s := s.setDin (fetch s).rest) i hfault
      rw [hu] at hrun
      cases hrun
      split
      · exact hkept
      · exact ⟨hfault, rfl⟩
    · cases hbad
      split
      · rw [refuseHeader_eq]
        simp [hfault]
      · exact ⟨hfault, rfl⟩
  case reset =>
    refine ⟨hardwareReset s, by rw [step, if_pos hrst], rfl, fun hwf => by simp [hwf],
      fun hmal => by simp [hmal], fun hwf hwide pk pad ovr len => ?_⟩
    have hfault : (hardwareReset s).fault = false := by simp [hwf]
    rw [exec_of_firstError hfault (firstError_new_of_scalarTooWide pk pad ovr len hwide),
      raise_of_no_fault _ hfault]
    rfl
end
